-- ==== Sys2Proof/Word.lean ====
section
/-! DEFINITION. The word types of the MeshCore CORE block (spec 00_scope.md rules R8, R9): a byte, a byte string,
the 16, 32 and 64 bit numbers that the wire formats and the primitives use, and text as Unicode scalar values. -/

namespace Sys2Proof

/-- A byte, an unsigned value 0 to 255 (R8). -/
abbrev Byte := BitVec 8

/-- A byte string: a finite sequence of bytes, the one addressed from offset 0 first (R9, R50). -/
abbrev Bytes := List Byte

/-- `u16` of R8. -/
abbrev Half := BitVec 16

/-- `u32` of R8, and the word of SHA-256 (R160). -/
abbrev Word := BitVec 32

/-- The 64 bits of an IEEE-754 binary64 number, `f64` of R8. -/
abbrev F64 := BitVec 64

/-- A `string` of R211: a sequence of Unicode scalar values (a `Char` of Lean is exactly one scalar value). -/
abbrev Text := List Char

end Sys2Proof
end

