-- ==== Sys2Proof/Machine/Result.lean ====
section
/-! DEFINITION. The types of what the block delivers: the payload types and their classes (R91), the parsed values
(R33, R211), the errors, undecryptable reasons and refusal reasons (R270 to R272), the value of `RES` (R33), and the
four outcomes of an operation (R12). Types only; their codes and computations stand in Flags.lean and the family
files. -/

namespace Sys2Proof

/-- The peer-encrypted payload types (R88, R91; PATH is one of them by 90_conflicts.md C6). -/
inductive PeerType where
  | req | response | txtMsg | path
  deriving DecidableEq, Repr, Inhabited

/-- The group-encrypted payload types (R87, R91). -/
inductive GroupType where
  | grpTxt | grpData
  deriving DecidableEq, Repr, Inhabited

/-- The opaque payload types (R90, R91). -/
inductive OpaqueType where
  | control | rawCustom
  deriving DecidableEq, Repr, Inhabited

/-- A payload type: its name, sorted by the decoder class the name belongs to (R91). -/
inductive PType where
  | peer (t : PeerType)
  | group (t : GroupType)
  | advert
  | ack
  | opaq (t : OpaqueType)
  /-- A code that has no type in the table (R230). -/
  | unknown
  deriving DecidableEq, Repr, Inhabited

/-- The decoder classes of R91. -/
inductive PClass where
  | advert | group | peer | ack | opaq | unknown
  deriving DecidableEq, Repr, Inhabited

/-- The `Packet` record of R33: the raw header byte, its four fields (both readings of bit 7 are kept, R82), the
transport codes in wire order (R26), the path and the payload. -/
structure Packet where
  header : Byte
  routeType : BitVec 2
  payloadType : BitVec 4
  payloadVersion : BitVec 2
  hasTransport : Bool
  transportCodes : Option (Half × Half)
  path : Bytes
  payload : Bytes
  deriving DecidableEq, Repr, Inhabited

/-- Advert kinds (R86, R214): `unknown n` for the codes 5 to 15. -/
inductive AdvertKind where
  | none | chat | repeater | room | sensor
  | unknown (n : BitVec 4)
  deriving DecidableEq, Repr, Inhabited

/-- The `AdvertRecord` of R33, with the raw fields the spec adds (`flags`, `lat_raw`, `lon_raw`, `name_bytes`).
`latRaw` and `lonRaw` are the signed 32-bit values; `lat` and `lon` are binary64 bit patterns (R232). -/
structure AdvertRecord where
  pubKey : Bytes
  timestamp : Word
  signature : Bytes
  kind : AdvertKind
  flags : Option Byte
  latRaw : Option Int
  lonRaw : Option Int
  lat : Option F64
  lon : Option F64
  extra1 : Option Half
  extra2 : Option Half
  nameBytes : Option Bytes
  name : Option Text
  deriving DecidableEq, Repr, Inhabited

/-- `GroupBody` of R211; the sub-type is the six bits 7:2 of the flags byte, 0 to 63. -/
structure GroupBody where
  timestamp : Word
  flags : Byte
  subType : BitVec 6
  textBytes : Option Bytes
  text : Option Text
  deriving DecidableEq, Repr, Inhabited

/-- `PeerBody` of R211. -/
inductive PeerBody where
  | text (timestamp : Word) (flags : Byte) (textBytes : Bytes) (text : Text)
  | tagged (tag : Word) (data : Bytes)
  deriving DecidableEq, Repr, Inhabited

/-- The result type `Decoded` of R211, a closed tagged variant. -/
inductive Decoded where
  | advert (r : AdvertRecord)
  | group (ptype : GroupType) (channelHash : Byte) (plaintext : Bytes) (body : Option GroupBody)
  | peer (ptype : PeerType) (hash0 hash1 : Byte) (plaintext : Bytes) (body : Option PeerBody)
  | ack (crc : Option Word)
  | opaq (ptype : OpaqueType) (data : Bytes)
  | unknown (code : BitVec 4)
  deriving DecidableEq, Repr, Inhabited

/-- `FrameError` of R270. -/
inductive FrameErr where
  | tooShort | badMagic | checksumMismatch
  deriving DecidableEq, Repr, Inhabited

/-- `PacketError` of R270. -/
inductive PacketErr where
  | emptyBody | truncated
  deriving DecidableEq, Repr, Inhabited

/-- `CryptoError` of R270. -/
inductive CryptoErr where
  | tooShort | authenticationFailed | invalidBlockLength
  deriving DecidableEq, Repr, Inhabited

/-- The eight errors in their three families, complete (R270). -/
inductive Err where
  | frame (e : FrameErr)
  | packet (e : PacketErr)
  | crypto (e : CryptoErr)
  deriving DecidableEq, Repr, Inhabited

/-- The five undecryptable reasons, complete (R271). -/
inductive UndecReason where
  | noSecret | payloadTooShort | cryptoTooShort | authenticationFailed | invalidBlockLength
  deriving DecidableEq, Repr, Inhabited

/-- The four refusal reasons, complete (R272). -/
inductive RefuseReason where
  | unknownOpcode | keyLocked | noKey | badOperand
  deriving DecidableEq, Repr, Inhabited

/-- `PayloadOutcome` of R252, and the three ways PLDECODE ends once it is accepted (R210): a decoded value, the one
malformed case (`Packet.Truncated`, a short ADVERT), or undecryptable with the cleartext hash bytes. -/
inductive PayloadOutcome where
  | decoded (d : Decoded)
  | malformedTruncated
  | undecryptable (reason : UndecReason) (clear : Bytes)
  deriving DecidableEq, Repr, Inhabited

/-- The value of `RES`, typed per operation (R33). After an undecryptable outcome it is `bytes clear` (R271). -/
inductive Res where
  | nothing
  | u16 (v : Half)
  | bytes (b : Bytes)
  | packet (p : Packet)
  | decoded (d : Decoded)
  | received (p : Packet) (po : PayloadOutcome)
  deriving DecidableEq, Repr, Inhabited

/-- The four outcomes of an operation (R12). -/
inductive OpOutcome where
  | ok (r : Res)
  | err (e : Err)
  | undecryptable (reason : UndecReason) (clear : Bytes)
  | refused (reason : RefuseReason)
  deriving DecidableEq, Repr, Inhabited

end Sys2Proof
end

