-- ==== Sys2Proof/Config.lean ====
section
/-! DEFINITION. The parameters of the block (00_scope.md rule R7). The eight that the source fixes are constants. The
ones marked OPEN are arguments of the model: they stand in `Params`, which a machine state carries and no step
changes, so that a statement about every state is a statement about every choice of them; `Params.default` is the
default of R7. `Config.freeRes` is the free value for a `RES` that the spec leaves unspecified. -/

namespace Sys2Proof

/-- `MAGIC` (R7): byte 0 of a frame. -/
def Config.magic0 : Byte := 0xC0

/-- `MAGIC` (R7): byte 1 of a frame. -/
def Config.magic1 : Byte := 0x3E

/-- `FLETCHER_MOD` (R7). -/
def Config.fletcherMod : Nat := 255

/-- `TAG_LEN` (R7). -/
def Config.tagLen : Nat := 2

/-- `SECRET_LEN` (R7). -/
def Config.secretLen : Nat := 32

/-- `AES_KEY_LEN` (R7). -/
def Config.aesKeyLen : Nat := 16

/-- `BLOCK_LEN` (R7). -/
def Config.blockLen : Nat := 16

/-- `ADVERT_PREFIX_LEN` (R7): 32 + 4 + 64. -/
def Config.advertPrefixLen : Nat := 100

/-- `MAX_PATH` (R7). -/
def Config.maxPath : Nat := 255

/-- `N_INSTANCES` (R7, OPEN), its default 1; Machine/Instances.lean models any number of instances. -/
def Config.nInstances : Nat := 1

/-- The largest byte-string operand the command stream CS1 can carry (R94: its length is a u16). -/
def Config.maxCs1 : Nat := 65535

/-- DESIGN CHOICE (log entry 3; the spec says "unspecified"): the free value of `RES` after an error or a refusal
(R23, R275, 93_implementation_defined.md X14). It has no body, so nothing can be proved of what it is; the state's
counter `free` gives each use an argument of its own. -/
opaque Config.freeRes : Nat → Res

/-- The OPEN parameters of R7 that one instance has. -/
structure Params where
  /-- `PTYPE_CLASS`: the type of each of the 16 payload type codes. -/
  ptypeTable : Vector PType 16
  /-- `ROUTE_NAME`: the names of the four route type codes; no rule reads them (R92). -/
  routeNames : Vector Text 4
  /-- `MAXLEN`: the largest byte-string operand accepted; `none` is unbounded. -/
  maxLen : Option Nat
  /-- `NUL_ESCAPE`: the text shown for the byte 0x00 by the optional rendering. -/
  nulEscape : Text
  /-- `PLACEHOLDER`: the character shown for a non-printable byte by the optional rendering. -/
  placeholder : Char
  deriving DecidableEq, Repr

/-- The default `PTYPE_CLASS` table of R91, which is also the opcode table's rows of format HDR. -/
def Params.defaultTable : Vector PType 16 :=
  #v[.peer .req, .peer .response, .peer .txtMsg, .ack, .advert, .group .grpTxt, .group .grpData, .unknown,
     .peer .path, .unknown, .unknown, .opaq .control, .unknown, .unknown, .unknown, .opaq .rawCustom]

/-- The one route type name that the source gives (R92). -/
def Params.flood : Text := ['F', 'L', 'O', 'O', 'D']

/-- The default `ROUTE_NAME` of R92. -/
def Params.defaultRouteNames : Vector Text 4 :=
  #v[['T', 'R', 'A', 'N', 'S', 'P', 'O', 'R', 'T', '_', 'F', 'L', 'O', 'O', 'D'],
     Params.flood,
     ['D', 'I', 'R', 'E', 'C', 'T'],
     ['T', 'R', 'A', 'N', 'S', 'P', 'O', 'R', 'T', '_', 'D', 'I', 'R', 'E', 'C', 'T']]

/-- The defaults of R7. -/
def Params.default : Params where
  ptypeTable := Params.defaultTable
  routeNames := Params.defaultRouteNames
  maxLen := none
  nulEscape := ['\\', '0']
  placeholder := '.'

/-- The ten type names that R91 lists. -/
def PType.named : List PType :=
  [.peer .req, .peer .response, .peer .txtMsg, .peer .path, .group .grpTxt, .group .grpData, .advert, .ack,
   .opaq .control, .opaq .rawCustom]

/-- The constraint of R91 and R92 on any tables the model is given: each named type has exactly one code, RAW_CUSTOM has
the code 0x0F (every other code is then UNKNOWN), and the route type 0x01 is FLOOD. -/
def Params.wf (p : Params) : Bool :=
  PType.named.all (fun t => p.ptypeTable.toList.count t == 1)
    && p.ptypeTable[15] == .opaq .rawCustom
    && p.routeNames[1] == Params.flood

end Sys2Proof
end

