-- ==== Sys2Proof/Syntax.lean ====
section
/-! DEFINITION. The instructions: one constructor for each row of spec/opcode_table.json. The twelve rows of format CMD
are the operations of R93 with their operands as the command interface presents them (a `u4` or `u2` operand arrives
in a byte, R94; an out-of-range byte is refused by the operation, R256). The sixteen rows of format HDR are the
payload-type dispatch of R91 and R210, matched on `header & 0x3C`: an instruction of that format is a header byte,
whose free fields are `ver` (bits 7:6, the high one also `has_transport`) and `rt` (bits 1:0), and the payload. -/

namespace Sys2Proof

inductive Instr where
  /-- `0x00` NOP (R251). -/
  | nop
  /-- `0x01` CKSUM (R120). -/
  | cksum (data : Bytes)
  /-- `0x02` UNWRAP (R130). -/
  | unwrap (raw : Bytes)
  /-- `0x03` WRAP (R131). -/
  | wrap (body : Bytes)
  /-- `0x04` PDECODE (R140). -/
  | pdecode (body : Bytes)
  /-- `0x05` PENCODE (R145): `route_type: u8`, `payload_type: u4`, the path, the payload. -/
  | pencode (rt pt : Byte) (path payload : Bytes)
  /-- `0x06` PENCODEX (R146): as PENCODE, with `hi: u2` and the optional transport codes. -/
  | pencodex (rt pt hi : Byte) (tc : Option (Half × Half)) (path payload : Bytes)
  /-- `0x07` MACDEC (R190). -/
  | macdec (buffer : Bytes)
  /-- `0x08` PLDECODE (R210). -/
  | pldecode (pt : Byte) (payload : Bytes)
  /-- `0x09` RXFRAME (R252). -/
  | rxframe (raw : Bytes)
  /-- `0x0A` TXFRAME (R253). -/
  | txframe (rt pt : Byte) (path payload : Bytes)
  /-- `0x10` SETKEY (R250). -/
  | setkey (k : Bytes)
  /-- HDR row REQ, `header & 0x3C = 0x00` (R226). -/
  | req (ver rt : BitVec 2) (payload : Bytes)
  /-- HDR row RESPONSE, `header & 0x3C = 0x04` (R226). -/
  | response (ver rt : BitVec 2) (payload : Bytes)
  /-- HDR row TXT_MSG, `header & 0x3C = 0x08` (R225). -/
  | txtMsg (ver rt : BitVec 2) (payload : Bytes)
  /-- HDR row ACK, `header & 0x3C = 0x0C` (R228). -/
  | ack (ver rt : BitVec 2) (payload : Bytes)
  /-- HDR row ADVERT, `header & 0x3C = 0x10` (R212). -/
  | advert (ver rt : BitVec 2) (payload : Bytes)
  /-- HDR row GRP_TXT, `header & 0x3C = 0x14` (R221). -/
  | grpTxt (ver rt : BitVec 2) (payload : Bytes)
  /-- HDR row GRP_DATA, `header & 0x3C = 0x18` (R221). -/
  | grpData (ver rt : BitVec 2) (payload : Bytes)
  /-- HDR row UNKNOWN_7, `header & 0x3C = 0x1C` (R230). -/
  | unknown7 (ver rt : BitVec 2) (payload : Bytes)
  /-- HDR row PATH, `header & 0x3C = 0x20` (R227). -/
  | path (ver rt : BitVec 2) (payload : Bytes)
  /-- HDR row UNKNOWN_9, `header & 0x3C = 0x24` (R230). -/
  | unknown9 (ver rt : BitVec 2) (payload : Bytes)
  /-- HDR row UNKNOWN_A, `header & 0x3C = 0x28` (R230). -/
  | unknownA (ver rt : BitVec 2) (payload : Bytes)
  /-- HDR row CONTROL, `header & 0x3C = 0x2C` (R229). -/
  | control (ver rt : BitVec 2) (payload : Bytes)
  /-- HDR row UNKNOWN_C, `header & 0x3C = 0x30` (R230). -/
  | unknownC (ver rt : BitVec 2) (payload : Bytes)
  /-- HDR row UNKNOWN_D, `header & 0x3C = 0x34` (R230). -/
  | unknownD (ver rt : BitVec 2) (payload : Bytes)
  /-- HDR row UNKNOWN_E, `header & 0x3C = 0x38` (R230). -/
  | unknownE (ver rt : BitVec 2) (payload : Bytes)
  /-- HDR row RAW_CUSTOM, `header & 0x3C = 0x3C` (R229). -/
  | rawCustom (ver rt : BitVec 2) (payload : Bytes)
  deriving DecidableEq, Repr

/-- The rows of format CMD, as against those of format HDR. -/
def Instr.isCommand : Instr → Bool
  | .nop | .cksum _ | .unwrap _ | .wrap _ | .pdecode _ | .pencode _ _ _ _ | .pencodex _ _ _ _ _ _ | .macdec _
  | .pldecode _ _ | .rxframe _ | .txframe _ _ _ _ | .setkey _ => true
  | .req _ _ _ | .response _ _ _ | .txtMsg _ _ _ | .ack _ _ _ | .advert _ _ _ | .grpTxt _ _ _ | .grpData _ _ _
  | .unknown7 _ _ _ | .path _ _ _ | .unknown9 _ _ _ | .unknownA _ _ _ | .control _ _ _ | .unknownC _ _ _
  | .unknownD _ _ _ | .unknownE _ _ _ | .rawCustom _ _ _ => false

end Sys2Proof
end

