-- ==== Sys2Proof/Machine/State.lean ====
section
/-! DEFINITION. The state of one instance of the block (10_state.md rules R20 to R23), its value after reset (R34,
R301), and the two ways a step could stop, of which no step of this model uses either: the block has no stop (R311,
93_implementation_defined.md: "nothing is `stuck`"). Beside the spec's six registers `State` carries the OPEN
parameters of R7 (`params`), what the host has issued and the block has not yet taken (`inbox`), and the counter of
free values (`free`). The transient registers of R24 to R28 are local values of the operations (log entry 8). -/

namespace Sys2Proof.Machine

/-- `PHASE` (R22): `CONFIG` until the first decode operation is accepted, then `RUN` until reset. -/
inductive Phase where
  | config | run
  deriving DecidableEq, Repr, Inhabited

/-- `STATUS` (R23); its 3-bit codes are `Status.code` of Flags.lean. -/
inductive Status where
  | idle | ok | err | undec | refused
  deriving DecidableEq, Repr, Inhabited

/-- What the host can put to the block (DESIGN CHOICE, log entry 2): the reset event (R300), one command at the
command interface (R93), a command stream in the format CS1 (R94), or a payload put to the payload decoders under its
header byte (the table's format HDR, log entry 1). -/
inductive HostItem where
  | reset
  | command (i : Instr)
  | stream (cs1 : Bytes)
  | payload (header : Byte) (data : Bytes)
  deriving DecidableEq, Repr

/-- Why a step stops with a fault. The type is empty: no rule of the spec stops the machine, an error of R270 is an
outcome that a next state records, and no meaning raises a fault. Safe: nothing can be proved from a fault. -/
inductive Fault where
  deriving DecidableEq, Repr

/-- Why a step has no meaning. -/
inductive Refusal where
  /-- Raised only by an arm of `exec` whose instruction has no meaning yet; no arm does. Safe: such a step has no next
  state. (The spec's own refusals, R272, are outcomes that a next state records.) -/
  | notModelled (mnemonic : String)
  deriving DecidableEq, Repr

/-- The state of one instance. -/
structure State where
  /-- The OPEN parameters of R7; no step writes them. -/
  params : Params
  /-- `KEY_VALID`, 1 bit (R21). -/
  keyValid : Bool
  /-- `KEY[0..31]`, 32 bytes, `KEY[0]` first (R21, R98). -/
  key : Vector Byte 32
  /-- `PHASE`, 1 bit (R22). -/
  phase : Phase
  /-- `STATUS`, 3 bits (R23). -/
  status : Status
  /-- `ERR`, 8 bits (R23). -/
  err : Byte
  /-- `RES` (R23, R33), with the byte-string results that leave in `OBUF` (R30). -/
  res : Res
  /-- What the host has issued and the block has not yet taken, the next first. The MODEL's own (log entry 2). -/
  inbox : List HostItem
  /-- How many free values have been used. The MODEL's own (log entry 3). -/
  free : Nat
  deriving DecidableEq, Repr

/-- DESIGN CHOICE (log entry 4): the value the model names for `KEY` after reset, where R34 says "unspecified". -/
def resetKey : Vector Byte 32 :=
  #v[0, 0, 0, 0, 0, 0, 0, 0, 0, 0, 0, 0, 0, 0, 0, 0, 0, 0, 0, 0, 0, 0, 0, 0, 0, 0, 0, 0, 0, 0, 0, 0]

/-- The machine right after reset (R34, R301): no secret, phase `CONFIG`, status `IDLE`, `ERR = 0`. `KEY` and `RES`,
which the rules leave unspecified, have the values that log entries 4 and 5 name; the parameters are the defaults of R7
(log entry 6); the host has issued nothing. -/
def State.reset : State where
  params := Params.default
  keyValid := false
  key := resetKey
  phase := .config
  status := .idle
  err := 0x00
  res := .nothing
  inbox := []
  free := 0

end Sys2Proof.Machine
end

