-- ==== Sys2Proof/Machine/Flags.lean ====
section
/-! DEFINITION. The status codes. The block has no arithmetic condition codes (R29); what stands in their place is the
outcome class in `STATUS` (R23), the code in `ERR` (R270 to R272), and the outcome that the three result registers hold
(R12), which is read back here. -/

namespace Sys2Proof.Machine

/-- The 1-bit code of `PHASE` (R22). -/
def Phase.code : Phase → BitVec 1
  | .config => 0
  | .run => 1

/-- The 3-bit code of `STATUS` (R23). -/
def Status.code : Status → BitVec 3
  | .idle => 0
  | .ok => 1
  | .err => 2
  | .undec => 3
  | .refused => 4

/-- The code of an error in `ERR` (R270). -/
def errCode : Err → Byte
  | .frame .tooShort => 0x11
  | .frame .badMagic => 0x12
  | .frame .checksumMismatch => 0x13
  | .packet .emptyBody => 0x21
  | .packet .truncated => 0x22
  | .crypto .tooShort => 0x31
  | .crypto .authenticationFailed => 0x32
  | .crypto .invalidBlockLength => 0x33

/-- The code of an undecryptable reason in `ERR` (R271). -/
def undecCode : UndecReason → Byte
  | .noSecret => 0x41
  | .payloadTooShort => 0x42
  | .cryptoTooShort => 0x43
  | .authenticationFailed => 0x44
  | .invalidBlockLength => 0x45

/-- The code of a refusal reason in `ERR` (R272). -/
def refuseCode : RefuseReason → Byte
  | .unknownOpcode => 0xF1
  | .keyLocked => 0xF2
  | .noKey => 0xF3
  | .badOperand => 0xF4

/-- All errors (R270), in the order of their codes. -/
def allErrs : List Err :=
  [.frame .tooShort, .frame .badMagic, .frame .checksumMismatch, .packet .emptyBody, .packet .truncated,
   .crypto .tooShort, .crypto .authenticationFailed, .crypto .invalidBlockLength]

/-- All undecryptable reasons (R271). -/
def allUndecs : List UndecReason :=
  [.noSecret, .payloadTooShort, .cryptoTooShort, .authenticationFailed, .invalidBlockLength]

/-- All refusal reasons (R272). -/
def allRefuses : List RefuseReason := [.unknownOpcode, .keyLocked, .noKey, .badOperand]

/-- The `STATUS` that an outcome sets (R12, R23). -/
def outcomeStatus : OpOutcome → Status
  | .ok _ => .ok
  | .err _ => .err
  | .undecryptable _ _ => .undec
  | .refused _ => .refused

/-- The `ERR` that an outcome sets: `0x00` with `OK` (R23). -/
def outcomeErr : OpOutcome → Byte
  | .ok _ => 0x00
  | .err e => errCode e
  | .undecryptable r _ => undecCode r
  | .refused r => refuseCode r

/-- The outcome that the result registers hold (R12, R23): `none` while no operation has been performed since reset, or
for register contents that no operation leaves. `RES` is read with `STATUS = OK` and `STATUS = UNDEC` only. -/
def State.lastOutcome (s : State) : Option OpOutcome :=
  match s.status with
  | .idle => none
  | .ok => some (.ok s.res)
  | .err => (allErrs.find? (errCode · == s.err)).map .err
  | .undec =>
    match s.res with
    | .bytes clear => (allUndecs.find? (undecCode · == s.err)).map (.undecryptable · clear)
    | _ => none
  | .refused => (allRefuses.find? (refuseCode · == s.err)).map .refused

end Sys2Proof.Machine
end

