-- ==== Sys2Proof/Machine/Fields.lean ====
section
/-! DEFINITION. Field assembly (00_scope.md rule R10, 30_encoding.md rule R83), the bit-fields of the header byte (R82)
and the byte cursor `POS` with its read `take` (R11, R27). -/

namespace Sys2Proof.Machine

/-- `le16(b) = b[0] | (b[1] << 8)`, for `len(b) = 2` (R10). -/
def le16 (b : Bytes) : Half :=
  (b.getD 0 0).setWidth 16 ||| ((b.getD 1 0).setWidth 16 <<< 8)

/-- `le32(b) = b[0] | (b[1] << 8) | (b[2] << 16) | (b[3] << 24)`, for `len(b) = 4` (R10). -/
def le32 (b : Bytes) : Word :=
  (b.getD 0 0).setWidth 32 ||| ((b.getD 1 0).setWidth 32 <<< 8) ||| ((b.getD 2 0).setWidth 32 <<< 16)
    ||| ((b.getD 3 0).setWidth 32 <<< 24)

/-- `be16(b) = (b[0] << 8) | b[1]`, for `len(b) = 2` (R10). -/
def be16 (b : Bytes) : Half :=
  ((b.getD 0 0).setWidth 16 <<< 8) ||| (b.getD 1 0).setWidth 16

/-- `s32(v)`: the two's-complement value of a `u32` (R10). -/
def s32 (v : Word) : Int :=
  if v.toNat < 2 ^ 31 then (v.toNat : Int) else (v.toNat : Int) - 2 ^ 32

/-- `low(v) = v mod 256` (R10). -/
def low (v : Half) : Byte := v.setWidth 8

/-- `high(v) = (v >> 8) mod 256` (R10). -/
def high (v : Half) : Byte := (v >>> 8).setWidth 8

/-- The two bytes of a little-endian `u16` field (R52). -/
def bytes16 (v : Half) : Bytes := [low v, high v]

/-- The slice `b[i:j]` (R9). -/
def slice (b : Bytes) (i j : Nat) : Bytes := (b.drop i).take (j - i)

/-- `route_type = header & 0x03` (R82). -/
def hdrRouteType (h : Byte) : BitVec 2 := (h &&& 0x03).setWidth 2

/-- `payload_type = (header >> 2) & 0x0F` (R82). -/
def hdrPayloadType (h : Byte) : BitVec 4 := ((h >>> 2) &&& 0x0F).setWidth 4

/-- `payload_version = (header >> 6) & 0x03` (R82). -/
def hdrPayloadVersion (h : Byte) : BitVec 2 := ((h >>> 6) &&& 0x03).setWidth 2

/-- `has_transport = (header & 0x80) != 0` (R82). -/
def hdrHasTransport (h : Byte) : Bool := h &&& 0x80 != 0

/-- The header byte that its fields determine (R141):
`HDR = (PAYLOAD_VERSION << 6) | (PAYLOAD_TYPE << 2) | ROUTE_TYPE`. -/
def hdrByte (ver : BitVec 2) (code : BitVec 4) (rt : BitVec 2) : Byte :=
  (ver.setWidth 8 <<< 6) ||| (code.setWidth 8 <<< 2) ||| rt.setWidth 8

/-- The input buffer `IBUF` of the operation in progress with its cursor `POS` (R27, R30). -/
structure Cursor where
  buf : Bytes
  pos : Nat
  deriving DecidableEq, Repr

/-- `take(n)` (R11): the check `len(IBUF) - POS >= n`, then `MemRead(POS, n)` and `POS <- POS + n`; `none` is the failed
check, and the operation in progress names the error. -/
def Cursor.take (c : Cursor) (n : Nat) : Option (Bytes × Cursor) :=
  if c.pos + n ≤ c.buf.length then some (slice c.buf c.pos (c.pos + n), { c with pos := c.pos + n }) else none

/-- The bytes from `POS` to the end of the buffer. -/
def Cursor.rest (c : Cursor) : Bytes := c.buf.drop c.pos

end Sys2Proof.Machine
end

