-- ==== Sys2Proof/Machine/Operands.lean ====
section
/-! DEFINITION. The operand forms of the operations (R93, R94) and the test of each that acceptance makes: the complete
list of malformed operands is R256. -/

namespace Sys2Proof.Machine

/-- A `bytes` operand is well formed unless the instance fixes a `MAXLEN` below its length (R256, D4). -/
def okBytes (p : Params) (b : Bytes) : Bool :=
  match p.maxLen with
  | none => true
  | some m => b.length ≤ m

/-- A `bytes(0..255)` operand, a path in `PBUF` (R30): at most 255 bytes, and within `MAXLEN` like any byte string.
A longer path cannot be presented (R256, R306); the model turns a term that holds one away (log entry 9). -/
def okPath (p : Params) (b : Bytes) : Bool := b.length ≤ Config.maxPath && okBytes p b

/-- A `u4` operand, a payload type (R94, R256, R307). -/
def okU4 (v : Byte) : Bool := v.toNat ≤ 15

/-- A `u2` operand, PENCODEX's `hi` (R94, R256). -/
def okU2 (v : Byte) : Bool := v.toNat ≤ 3

/-- The transport codes are present exactly when bit 1 of `hi` is set (R146, R256). -/
def okTc (hi : Byte) (tc : Option (Half × Half)) : Bool := tc.isSome == (hi &&& 2 != 0)

/-- The type that the table `PTYPE_CLASS` gives a code (R91). -/
def ptypeOf (p : Params) (code : BitVec 4) : PType := p.ptypeTable.get code.toFin

/-- The decoder class of a type (R91). -/
def ptypeClass : PType → PClass
  | .peer _ => .peer
  | .group _ => .group
  | .advert => .advert
  | .ack => .ack
  | .opaq _ => .opaq
  | .unknown => .unknown

/-- The `ROUTE_NAME` of a route type (R92); no operation reads it. -/
def routeNameOf (p : Params) (rt : BitVec 2) : Text := p.routeNames.get rt.toFin

/-- The secret, where one is configured: while `KEY_VALID = 0` nothing reads `KEY` (R21). -/
def State.secret? (s : State) : Option Bytes := if s.keyValid then some s.key.toList else none

end Sys2Proof.Machine
end

