-- ==== Sys2Proof/Machine/Ops.lean ====
section
/-! DEFINITION. The operations over the state that the meanings share: how an outcome is written to `STATUS`, `ERR` and
`RES` (R23), the entry of an error (R275), a refusal (R254, R272), the change of phase (R22), the write of the secret
(R250), and the reset event (R300). The block has no return from an error (R277): the next command is simply
accepted, and `State.complete` is the whole of a normal end. -/

namespace Sys2Proof.Machine

/-- A free value for an unspecified `RES` (R23, X14; log entry 3), a new one at each use. -/
def State.freshRes (s : State) : State := { s with res := Config.freeRes s.free, free := s.free + 1 }

/-- A normal end, `Ok(v)`: `STATUS <- OK`, `ERR <- 0`, `RES <- v` (R23, R275 has the other end). -/
def State.complete (v : Res) (s : State) : State := { s with status := .ok, err := 0x00, res := v }

/-- ERROR ENTRY, what `raise e` does (R275): `STATUS <- ERR`, `ERR <- code(e)`, `RES` becomes unspecified; the secret
and the phase are as they were. There is no handler, no saved state and no mode change. -/
def State.raise (e : Err) (s : State) : State := { s.freshRes with status := .err, err := errCode e }

/-- `Undecryptable(reason, clear)` (R271): `STATUS <- UNDEC`, `ERR <-` the reason code, `RES <- clear`. -/
def State.undecryptable (r : UndecReason) (clear : Bytes) (s : State) : State :=
  { s with status := .undec, err := undecCode r, res := .bytes clear }

/-- `Refused(reason)` (R254, R272): `STATUS <- REFUSED`, `ERR <-` the reason code, `RES` unspecified, nothing else. -/
def State.refuse (r : RefuseReason) (s : State) : State := { s.freshRes with status := .refused, err := refuseCode r }

/-- The end of an operation in one of the four outcomes (R12). -/
def State.finish (o : OpOutcome) (s : State) : State :=
  match o with
  | .ok v => s.complete v
  | .err e => s.raise e
  | .undecryptable r clear => s.undecryptable r clear
  | .refused r => s.refuse r

/-- `PHASE <- RUN`: what the five decode operations do as soon as they are accepted (R22, R254). -/
def State.enterRun (s : State) : State := { s with phase := .run }

/-- Acceptance up to the operand test (R254 (2)): a malformed operand ends the command in `Refused(BadOperand)`, which
changes nothing but the result registers; otherwise the operation is performed. -/
def State.accept (operandsOk : Bool) (perform : State → State) (s : State) : State :=
  if operandsOk then perform s else s.refuse .badOperand

/-- The 32 bytes that SETKEY stores: `KEY[i] <- k[i] if i < len(k) else 0x00` (R250). -/
def padKey (k : Bytes) : Vector Byte 32 :=
  Vector.mk (Array.mk ((List.range 32).map fun i => k.getD i 0x00)) (by simp)

/-- The write of the DecryptionContext (R250). -/
def State.installKey (k : Bytes) (s : State) : State := { s with key := padKey k, keyValid := true }

/-- The reset event (R300, R301): every register as `State.reset` has it. What the host has issued after it, the
parameters and the count of free values are not registers of the block and stay (log entry 11). -/
def State.applyReset (s : State) : State :=
  { State.reset with params := s.params, inbox := s.inbox, free := s.free }

end Sys2Proof.Machine
end

