-- ==== Sys2Proof/Machine/Checksum.lean ====
section
/-! DEFINITION. The checksum generator and its operation CKSUM (40_checksum.md rules R120 to R123). -/

namespace Sys2Proof.Machine

/-- The two running sums `SUM1`, `SUM2`, transient (R24); each is 0 to 254 between bytes. -/
structure Sums where
  sum1 : Nat
  sum2 : Nat
  deriving DecidableEq, Repr

/-- Both sums start at 0 (R24, R120). -/
def Sums.start : Sums := ⟨0, 0⟩

/-- One byte (R120): `SUM1 <- (SUM1 + byte) mod 255`, then `SUM2 <- (SUM2 + SUM1) mod 255` with the new `SUM1`. -/
def Sums.step (c : Sums) (b : Byte) : Sums :=
  let s1 := (c.sum1 + b.toNat) % Config.fletcherMod
  ⟨s1, (c.sum2 + s1) % Config.fletcherMod⟩

/-- The sums after a byte string, from given sums (the streaming form of R123). -/
def Sums.run (c : Sums) (data : Bytes) : Sums := data.foldl Sums.step c

/-- `CKSUM16 = (SUM2 << 8) | SUM1` (R24, R120). -/
def Sums.result (c : Sums) : Half := (BitVec.ofNat 16 c.sum2 <<< 8) ||| BitVec.ofNat 16 c.sum1

/-- `Fletcher16(data)` (R120). -/
def fletcher16 (data : Bytes) : Half := (Sums.start.run data).result

/-- CKSUM (R120): no error; the phase is untouched. -/
def execCksum (data : Bytes) (s : State) : Host.Outcome State Fault Refusal :=
  .next (s.accept (okBytes s.params data) (State.complete (.u16 (fletcher16 data))))

end Sys2Proof.Machine
end

