-- ==== Sys2Proof/Machine/FrameCodec.lean ====
section
/-! DEFINITION. The frame envelope parser and builder, operations UNWRAP and WRAP (41_framecodec.md rules R130 to
R133; the frame format is R80). -/

namespace Sys2Proof.Machine

/-- `0xC03E`, the frame magic as a big-endian `u16` (R7, R80). -/
def magic : Half := be16 [Config.magic0, Config.magic1]

/-- The tests and the result of UNWRAP, in the order of R130 and R274. -/
def unwrap (raw : Bytes) : Except FrameErr Bytes :=
  if raw.length < 4 then .error .tooShort
  else if be16 (slice raw 0 2) ≠ magic then .error .badMagic
  else if le16 (slice raw 2 4) ≠ fletcher16 (raw.drop 4) then .error .checksumMismatch
  else .ok (raw.drop 4)

/-- The frame that WRAP builds (R131). -/
def wrap (body : Bytes) : Bytes :=
  [Config.magic0, Config.magic1, low (fletcher16 body), high (fletcher16 body)] ++ body

/-- UNWRAP (R130). -/
def execUnwrap (raw : Bytes) (s : State) : Host.Outcome State Fault Refusal :=
  .next (s.accept (okBytes s.params raw) fun s =>
    s.enterRun.finish (match unwrap raw with | .ok body => .ok (.bytes body) | .error e => .err (.frame e)))

/-- WRAP (R131): no error; the phase is untouched. -/
def execWrap (body : Bytes) (s : State) : Host.Outcome State Fault Refusal :=
  .next (s.accept (okBytes s.params body) (State.complete (.bytes (wrap body))))

end Sys2Proof.Machine
end

