-- ==== Sys2Proof/Machine/PacketCodec.lean ====
section
/-! DEFINITION. The header decoder, transport-code reader, path parser and packet serializers, operations PDECODE,
PENCODE and PENCODEX (42_packetcodec.md rules R140 to R149; the body format is R81). -/

namespace Sys2Proof.Machine

/-- Step 1 of PDECODE, the header byte (R141): `EmptyBody` when there is none. -/
def readHeader (c : Cursor) : Except PacketErr (Byte × Cursor) :=
  match c.take 1 with
  | some (b, c) => .ok (b.getD 0 0, c)
  | none => .error .emptyBody

/-- Step 2 of PDECODE, the transport codes (R142): read exactly when header bit 7 is set. -/
def readTransport (hasTransport : Bool) (c : Cursor) : Except PacketErr (Option (Half × Half) × Cursor) :=
  if hasTransport then
    match c.take 4 with
    | some (t, c) => .ok (some (le16 (slice t 0 2), le16 (slice t 2 4)), c)
    | none => .error .truncated
  else .ok (none, c)

/-- Step 3 of PDECODE, the variable-length path (R143): the length byte, then exactly that many bytes. -/
def readPath (c : Cursor) : Except PacketErr (Bytes × Cursor) :=
  match c.take 1 with
  | none => .error .truncated
  | some (l, c) =>
    match c.take (l.getD 0 0).toNat with
    | none => .error .truncated
    | some (path, c) => .ok (path, c)

/-- The `Packet` of a header byte and the three parts that follow it (R140, R144). -/
def packetOf (h : Byte) (tc : Option (Half × Half)) (path payload : Bytes) : Packet where
  header := h
  routeType := hdrRouteType h
  payloadType := hdrPayloadType h
  payloadVersion := hdrPayloadVersion h
  hasTransport := hdrHasTransport h
  transportCodes := tc
  path := path
  payload := payload

/-- The four steps of PDECODE in sequence (R140 to R144), from `POS = 0`. -/
def pdecode (body : Bytes) : Except PacketErr Packet :=
  match readHeader ⟨body, 0⟩ with
  | .error e => .error e
  | .ok (h, c) =>
    match readTransport (hdrHasTransport h) c with
    | .error e => .error e
    | .ok (tc, c) =>
      match readPath c with
      | .error e => .error e
      | .ok (path, c) => .ok (packetOf h tc path c.rest)

/-- The body that PENCODE builds (R145): header bits 7:6 are 0, and no transport codes are written. -/
def pencode (rt pt : Byte) (path payload : Bytes) : Bytes :=
  [(pt <<< 2) ||| (rt &&& 0x03)] ++ [BitVec.ofNat 8 path.length] ++ path ++ payload

/-- The bytes of optional transport codes (R146). -/
def tcBytes : Option (Half × Half) → Bytes
  | some (c0, c1) => bytes16 c0 ++ bytes16 c1
  | none => []

/-- The body that PENCODEX builds (R146). -/
def pencodex (rt pt hi : Byte) (tc : Option (Half × Half)) (path payload : Bytes) : Bytes :=
  [(hi <<< 6) ||| (pt <<< 2) ||| (rt &&& 0x03)] ++ tcBytes tc ++ [BitVec.ofNat 8 path.length] ++ path ++ payload

/-- The operand test of PENCODE, which TXFRAME shares (R145, R253, R256). -/
def okPencode (p : Params) (pt : Byte) (path payload : Bytes) : Bool :=
  okU4 pt && okPath p path && okBytes p payload

/-- PDECODE (R140). -/
def execPdecode (body : Bytes) (s : State) : Host.Outcome State Fault Refusal :=
  .next (s.accept (okBytes s.params body) fun s =>
    s.enterRun.finish (match pdecode body with | .ok p => .ok (.packet p) | .error e => .err (.packet e)))

/-- PENCODE (R145): no error; the phase is untouched. -/
def execPencode (rt pt : Byte) (path payload : Bytes) (s : State) : Host.Outcome State Fault Refusal :=
  .next (s.accept (okPencode s.params pt path payload) (State.complete (.bytes (pencode rt pt path payload))))

/-- PENCODEX (R146): refused when the transport codes and bit 1 of `hi` disagree (R256). -/
def execPencodex (rt pt hi : Byte) (tc : Option (Half × Half)) (path payload : Bytes) (s : State) :
    Host.Outcome State Fault Refusal :=
  .next (s.accept (okPencode s.params pt path payload && okU2 hi && okTc hi tc)
    (State.complete (.bytes (pencodex rt pt hi tc path payload))))

end Sys2Proof.Machine
end

