-- ==== Sys2Proof/Machine/Sha256.lean ====
section
/-! DEFINITION. SHA-256, HMAC-SHA256 and the truncated authenticator (43_crypto_primitives.md rules R160 to R166). The
spec supplies the algorithms from general knowledge and marks them so; the model follows its text (log entry 14). All
registers of this file are transient (R28). -/

namespace Sys2Proof.Machine

/-- `ROTR^n(x)` on 32 bits (R160). -/
def rotr (n : Nat) (x : Word) : Word := (x >>> n) ||| (x <<< (32 - n))

/-- `Ch` (R161). -/
def shaCh (x y z : Word) : Word := (x &&& y) ^^^ (~~~x &&& z)

/-- `Maj` (R161). -/
def shaMaj (x y z : Word) : Word := (x &&& y) ^^^ (x &&& z) ^^^ (y &&& z)

/-- `BSIG0` (R161). -/
def bsig0 (x : Word) : Word := rotr 2 x ^^^ rotr 13 x ^^^ rotr 22 x

/-- `BSIG1` (R161). -/
def bsig1 (x : Word) : Word := rotr 6 x ^^^ rotr 11 x ^^^ rotr 25 x

/-- `SSIG0` (R161). -/
def ssig0 (x : Word) : Word := rotr 7 x ^^^ rotr 18 x ^^^ (x >>> 3)

/-- `SSIG1` (R161). -/
def ssig1 (x : Word) : Word := rotr 17 x ^^^ rotr 19 x ^^^ (x >>> 10)

/-- The eight chaining words `H[0..7]`, or the working variables `a..h` (R28, R163). -/
structure ShaWords where
  a : Word
  b : Word
  c : Word
  d : Word
  e : Word
  f : Word
  g : Word
  h : Word
  deriving DecidableEq, Repr

/-- `H^(0)` (R162). -/
def shaInit : ShaWords where
  a := 0x6a09e667
  b := 0xbb67ae85
  c := 0x3c6ef372
  d := 0xa54ff53a
  e := 0x510e527f
  f := 0x9b05688c
  g := 0x1f83d9ab
  h := 0x5be0cd19

/-- The round constants `K[0..63]` (R162), eight per line. -/
def shaK : List Word :=
  [0x428a2f98, 0x71374491, 0xb5c0fbcf, 0xe9b5dba5, 0x3956c25b, 0x59f111f1, 0x923f82a4, 0xab1c5ed5]
    ++ [0xd807aa98, 0x12835b01, 0x243185be, 0x550c7dc3, 0x72be5d74, 0x80deb1fe, 0x9bdc06a7, 0xc19bf174]
    ++ [0xe49b69c1, 0xefbe4786, 0x0fc19dc6, 0x240ca1cc, 0x2de92c6f, 0x4a7484aa, 0x5cb0a9dc, 0x76f988da]
    ++ [0x983e5152, 0xa831c66d, 0xb00327c8, 0xbf597fc7, 0xc6e00bf3, 0xd5a79147, 0x06ca6351, 0x14292967]
    ++ [0x27b70a85, 0x2e1b2138, 0x4d2c6dfc, 0x53380d13, 0x650a7354, 0x766a0abb, 0x81c2c92e, 0x92722c85]
    ++ [0xa2bfe8a1, 0xa81a664b, 0xc24b8b70, 0xc76c51a3, 0xd192e819, 0xd6990624, 0xf40e3585, 0x106aa070]
    ++ [0x19a4c116, 0x1e376c08, 0x2748774c, 0x34b0bcb5, 0x391c0cb3, 0x4ed8aa4a, 0x5b9cca4f, 0x682e6ff3]
    ++ [0x748f82ee, 0x78a5636f, 0x84c87814, 0x8cc70208, 0x90befffa, 0xa4506ceb, 0xbef9a3f7, 0xc67178f2]

/-- `be64(v)`, big-endian (R160). -/
def be64 (v : Nat) : Bytes :=
  let w := BitVec.ofNat 64 v
  [(w >>> 56).setWidth 8, (w >>> 48).setWidth 8, (w >>> 40).setWidth 8, (w >>> 32).setWidth 8,
   (w >>> 24).setWidth 8, (w >>> 16).setWidth 8, (w >>> 8).setWidth 8, w.setWidth 8]

/-- `be32` of a word (R164). -/
def be32 (w : Word) : Bytes :=
  [(w >>> 24).setWidth 8, (w >>> 16).setWidth 8, (w >>> 8).setWidth 8, w.setWidth 8]

/-- The padded message `M'` (R160), with `k = (55 - L) mod 64` zero bytes. -/
def shaPad (m : Bytes) : Bytes :=
  m ++ [0x80] ++ List.replicate ((55 + 64 - m.length % 64) % 64) 0x00 ++ be64 (8 * m.length)

/-- The first `k` pieces of `n` bytes of a byte string, in order. -/
def pieces (n : Nat) : Nat → Bytes → List Bytes
  | 0, _ => []
  | k + 1, b => b.take n :: pieces n k (b.drop n)

/-- A big-endian word of a block (R160). -/
def be32Word (b0 b1 b2 b3 : Byte) : Word := b0 ++ b1 ++ b2 ++ b3

/-- The words of a block (R160). -/
def shaBlockWords : Bytes → List Word
  | b0 :: b1 :: b2 :: b3 :: rest => be32Word b0 b1 b2 b3 :: shaBlockWords rest
  | _ => []

/-- The next `n` words of the schedule from the sixteen before them, `W[t-16]` first (R163):
`W[t] <- SSIG1(W[t-2]) + W[t-7] + SSIG0(W[t-15]) + W[t-16]`. -/
def shaExtend : Nat → List Word → List Word
  | 0, _ => []
  | n + 1, last16 =>
    let w := ssig1 (last16.getD 14 0) + last16.getD 9 0 + ssig0 (last16.getD 1 0) + last16.getD 0 0
    w :: shaExtend n (last16.drop 1 ++ [w])

/-- The schedule `W[0..63]` of a block (R163). -/
def shaSchedule (block : Bytes) : List Word :=
  let first := shaBlockWords block
  first ++ shaExtend 48 first

/-- One round (R163) with the constant `K[t]` and the schedule word `W[t]`. -/
def shaRound (v : ShaWords) (kw : Word × Word) : ShaWords :=
  let t1 := v.h + bsig1 v.e + shaCh v.e v.f v.g + kw.1 + kw.2
  let t2 := bsig0 v.a + shaMaj v.a v.b v.c
  ⟨t1 + t2, v.a, v.b, v.c, v.d + t1, v.e, v.f, v.g⟩

/-- The word by word sum that ends a block (R163). -/
def ShaWords.add (x y : ShaWords) : ShaWords :=
  ⟨x.a + y.a, x.b + y.b, x.c + y.c, x.d + y.d, x.e + y.e, x.f + y.f, x.g + y.g, x.h + y.h⟩

/-- The compression of one block (R163). -/
def shaCompress (h : ShaWords) (block : Bytes) : ShaWords :=
  h.add ((shaK.zip (shaSchedule block)).foldl shaRound h)

/-- The output order (R164). -/
def ShaWords.bytes (h : ShaWords) : Bytes :=
  be32 h.a ++ be32 h.b ++ be32 h.c ++ be32 h.d ++ be32 h.e ++ be32 h.f ++ be32 h.g ++ be32 h.h

/-- `SHA256(M)` (R160 to R164). -/
def sha256 (m : Bytes) : Bytes :=
  let padded := shaPad m
  ((pieces 64 (padded.length / 64) padded).foldl shaCompress shaInit).bytes

/-- `K0` (R165): a key of at most 64 bytes, zero-padded; a longer one is hashed first (the block never has one). -/
def hmacKey (k : Bytes) : Bytes :=
  let k := if k.length ≤ 64 then k else sha256 k
  k ++ List.replicate (64 - k.length) 0x00

/-- `HMAC_SHA256(K, M)` (R165). -/
def hmacSha256 (k m : Bytes) : Bytes :=
  sha256 ((hmacKey k).map (· ^^^ 0x5C) ++ sha256 ((hmacKey k).map (· ^^^ 0x36) ++ m))

/-- `TAG2(secret, ciphertext)` (R166): the first two bytes of the HMAC output over the ciphertext alone. -/
def tag2 (secret ciphertext : Bytes) : Bytes :=
  (hmacSha256 (secret.take Config.secretLen) ciphertext).take Config.tagLen

end Sys2Proof.Machine
end

