-- ==== Sys2Proof/Machine/Aes.lean ====
section
/-! DEFINITION. The AES-128 inverse cipher and ECB decryption (43_crypto_primitives.md rules R167 to R177; the mode is
ECB by 90_conflicts.md C1). The spec supplies the algorithm from general knowledge and marks it so (log entry 14). The
state is flat, byte `i = r + 4c` of the block (R167); all registers of this file are transient (R28). -/

namespace Sys2Proof.Machine

/-- `SBOX` (R169), one line for each high nibble. -/
def sboxRows : List Bytes :=
  [[0x63, 0x7c, 0x77, 0x7b, 0xf2, 0x6b, 0x6f, 0xc5, 0x30, 0x01, 0x67, 0x2b, 0xfe, 0xd7, 0xab, 0x76],
   [0xca, 0x82, 0xc9, 0x7d, 0xfa, 0x59, 0x47, 0xf0, 0xad, 0xd4, 0xa2, 0xaf, 0x9c, 0xa4, 0x72, 0xc0],
   [0xb7, 0xfd, 0x93, 0x26, 0x36, 0x3f, 0xf7, 0xcc, 0x34, 0xa5, 0xe5, 0xf1, 0x71, 0xd8, 0x31, 0x15],
   [0x04, 0xc7, 0x23, 0xc3, 0x18, 0x96, 0x05, 0x9a, 0x07, 0x12, 0x80, 0xe2, 0xeb, 0x27, 0xb2, 0x75],
   [0x09, 0x83, 0x2c, 0x1a, 0x1b, 0x6e, 0x5a, 0xa0, 0x52, 0x3b, 0xd6, 0xb3, 0x29, 0xe3, 0x2f, 0x84],
   [0x53, 0xd1, 0x00, 0xed, 0x20, 0xfc, 0xb1, 0x5b, 0x6a, 0xcb, 0xbe, 0x39, 0x4a, 0x4c, 0x58, 0xcf],
   [0xd0, 0xef, 0xaa, 0xfb, 0x43, 0x4d, 0x33, 0x85, 0x45, 0xf9, 0x02, 0x7f, 0x50, 0x3c, 0x9f, 0xa8],
   [0x51, 0xa3, 0x40, 0x8f, 0x92, 0x9d, 0x38, 0xf5, 0xbc, 0xb6, 0xda, 0x21, 0x10, 0xff, 0xf3, 0xd2],
   [0xcd, 0x0c, 0x13, 0xec, 0x5f, 0x97, 0x44, 0x17, 0xc4, 0xa7, 0x7e, 0x3d, 0x64, 0x5d, 0x19, 0x73],
   [0x60, 0x81, 0x4f, 0xdc, 0x22, 0x2a, 0x90, 0x88, 0x46, 0xee, 0xb8, 0x14, 0xde, 0x5e, 0x0b, 0xdb],
   [0xe0, 0x32, 0x3a, 0x0a, 0x49, 0x06, 0x24, 0x5c, 0xc2, 0xd3, 0xac, 0x62, 0x91, 0x95, 0xe4, 0x79],
   [0xe7, 0xc8, 0x37, 0x6d, 0x8d, 0xd5, 0x4e, 0xa9, 0x6c, 0x56, 0xf4, 0xea, 0x65, 0x7a, 0xae, 0x08],
   [0xba, 0x78, 0x25, 0x2e, 0x1c, 0xa6, 0xb4, 0xc6, 0xe8, 0xdd, 0x74, 0x1f, 0x4b, 0xbd, 0x8b, 0x8a],
   [0x70, 0x3e, 0xb5, 0x66, 0x48, 0x03, 0xf6, 0x0e, 0x61, 0x35, 0x57, 0xb9, 0x86, 0xc1, 0x1d, 0x9e],
   [0xe1, 0xf8, 0x98, 0x11, 0x69, 0xd9, 0x8e, 0x94, 0x9b, 0x1e, 0x87, 0xe9, 0xce, 0x55, 0x28, 0xdf],
   [0x8c, 0xa1, 0x89, 0x0d, 0xbf, 0xe6, 0x42, 0x68, 0x41, 0x99, 0x2d, 0x0f, 0xb0, 0x54, 0xbb, 0x16]]

/-- `INVSBOX` (R170), one line for each high nibble. -/
def invSboxRows : List Bytes :=
  [[0x52, 0x09, 0x6a, 0xd5, 0x30, 0x36, 0xa5, 0x38, 0xbf, 0x40, 0xa3, 0x9e, 0x81, 0xf3, 0xd7, 0xfb],
   [0x7c, 0xe3, 0x39, 0x82, 0x9b, 0x2f, 0xff, 0x87, 0x34, 0x8e, 0x43, 0x44, 0xc4, 0xde, 0xe9, 0xcb],
   [0x54, 0x7b, 0x94, 0x32, 0xa6, 0xc2, 0x23, 0x3d, 0xee, 0x4c, 0x95, 0x0b, 0x42, 0xfa, 0xc3, 0x4e],
   [0x08, 0x2e, 0xa1, 0x66, 0x28, 0xd9, 0x24, 0xb2, 0x76, 0x5b, 0xa2, 0x49, 0x6d, 0x8b, 0xd1, 0x25],
   [0x72, 0xf8, 0xf6, 0x64, 0x86, 0x68, 0x98, 0x16, 0xd4, 0xa4, 0x5c, 0xcc, 0x5d, 0x65, 0xb6, 0x92],
   [0x6c, 0x70, 0x48, 0x50, 0xfd, 0xed, 0xb9, 0xda, 0x5e, 0x15, 0x46, 0x57, 0xa7, 0x8d, 0x9d, 0x84],
   [0x90, 0xd8, 0xab, 0x00, 0x8c, 0xbc, 0xd3, 0x0a, 0xf7, 0xe4, 0x58, 0x05, 0xb8, 0xb3, 0x45, 0x06],
   [0xd0, 0x2c, 0x1e, 0x8f, 0xca, 0x3f, 0x0f, 0x02, 0xc1, 0xaf, 0xbd, 0x03, 0x01, 0x13, 0x8a, 0x6b],
   [0x3a, 0x91, 0x11, 0x41, 0x4f, 0x67, 0xdc, 0xea, 0x97, 0xf2, 0xcf, 0xce, 0xf0, 0xb4, 0xe6, 0x73],
   [0x96, 0xac, 0x74, 0x22, 0xe7, 0xad, 0x35, 0x85, 0xe2, 0xf9, 0x37, 0xe8, 0x1c, 0x75, 0xdf, 0x6e],
   [0x47, 0xf1, 0x1a, 0x71, 0x1d, 0x29, 0xc5, 0x89, 0x6f, 0xb7, 0x62, 0x0e, 0xaa, 0x18, 0xbe, 0x1b],
   [0xfc, 0x56, 0x3e, 0x4b, 0xc6, 0xd2, 0x79, 0x20, 0x9a, 0xdb, 0xc0, 0xfe, 0x78, 0xcd, 0x5a, 0xf4],
   [0x1f, 0xdd, 0xa8, 0x33, 0x88, 0x07, 0xc7, 0x31, 0xb1, 0x12, 0x10, 0x59, 0x27, 0x80, 0xec, 0x5f],
   [0x60, 0x51, 0x7f, 0xa9, 0x19, 0xb5, 0x4a, 0x0d, 0x2d, 0xe5, 0x7a, 0x9f, 0x93, 0xc9, 0x9c, 0xef],
   [0xa0, 0xe0, 0x3b, 0x4d, 0xae, 0x2a, 0xf5, 0xb0, 0xc8, 0xeb, 0xbb, 0x3c, 0x83, 0x53, 0x99, 0x61],
   [0x17, 0x2b, 0x04, 0x7e, 0xba, 0x77, 0xd6, 0x26, 0xe1, 0x69, 0x14, 0x63, 0x55, 0x21, 0x0c, 0x7d]]

/-- The entry of a table of 16 rows of 16 for a byte: the row is its high nibble, the column its low one (R169). -/
def nibbleLookup (rows : List Bytes) (a : Byte) : Byte := (rows.getD (a.toNat / 16) []).getD (a.toNat % 16) 0

/-- `SBOX[a]` (R169). -/
def sbox (a : Byte) : Byte := nibbleLookup sboxRows a

/-- `INVSBOX[a]` (R170). -/
def invSbox (a : Byte) : Byte := nibbleLookup invSboxRows a

/-- `xtime(a)` (R168). -/
def xtime (a : Byte) : Byte := if a.toNat < 0x80 then a <<< 1 else (a <<< 1) ^^^ 0x1B

/-- The loop of the product of R168, `n` times from the accumulator `r`. -/
def gmulLoop : Nat → Byte → Byte → Byte → Byte
  | 0, r, _, _ => r
  | n + 1, r, a, b => gmulLoop n (if b &&& 1 ≠ 0 then r ^^^ a else r) (xtime a) (b >>> 1)

/-- The product of two bytes in GF(2^8) (R168), `a` the byte of the state and `b` the constant. -/
def gmul (a b : Byte) : Byte := gmulLoop 8 0 a b

/-- Byte-wise XOR of two byte strings of one length (R165, R171, R172). -/
def xorBytes (a b : Bytes) : Bytes := List.zipWith (· ^^^ ·) a b

/-- `rc[1..10]` (R171). -/
def aesRc : Bytes := [0x01, 0x02, 0x04, 0x08, 0x10, 0x20, 0x40, 0x80, 0x1b, 0x36]

/-- `RotWord` (R171). -/
def rotWord (w : Bytes) : Bytes := w.drop 1 ++ w.take 1

/-- The word that follows the words `ws` of the key schedule, at index `i = len(ws)` (R171). -/
def aesNextWord (ws : List Bytes) : Bytes :=
  let i := ws.length
  let prev := ws.getD (i - 1) []
  let temp :=
    if i % 4 = 0 then xorBytes ((rotWord prev).map sbox) [aesRc.getD (i / 4 - 1) 0, 0, 0, 0] else prev
  xorBytes (ws.getD (i - 4) []) temp

/-- `n` more words of the key schedule (R171). -/
def aesExtend : Nat → List Bytes → List Bytes
  | 0, ws => ws
  | n + 1, ws => aesExtend n (ws ++ [aesNextWord ws])

/-- The 44 words `w[0..43]` (R171). -/
def aesWords (key : Bytes) : List Bytes :=
  aesExtend 40 [slice key 0 4, slice key 4 8, slice key 8 12, slice key 12 16]

/-- The round keys `rk[0..10]` (R171). -/
def aesRoundKeys (key : Bytes) : List Bytes := pieces 16 11 (aesWords key).flatten

/-- `InvShiftRows` (R173), by the source index of each destination index. -/
def invShiftRows (s : Bytes) : Bytes :=
  [0, 13, 10, 7, 4, 1, 14, 11, 8, 5, 2, 15, 12, 9, 6, 3].map (s.getD · 0)

/-- `InvSubBytes` (R174). -/
def invSubBytes (s : Bytes) : Bytes := s.map invSbox

/-- One column of `InvMixColumns` (R175). -/
def invMixColumn (a0 a1 a2 a3 : Byte) : Bytes :=
  [gmul a0 0x0e ^^^ gmul a1 0x0b ^^^ gmul a2 0x0d ^^^ gmul a3 0x09,
   gmul a0 0x09 ^^^ gmul a1 0x0e ^^^ gmul a2 0x0b ^^^ gmul a3 0x0d,
   gmul a0 0x0d ^^^ gmul a1 0x09 ^^^ gmul a2 0x0e ^^^ gmul a3 0x0b,
   gmul a0 0x0b ^^^ gmul a1 0x0d ^^^ gmul a2 0x09 ^^^ gmul a3 0x0e]

/-- `InvMixColumns` (R175), column by column. -/
def invMixColumns : Bytes → Bytes
  | a0 :: a1 :: a2 :: a3 :: rest => invMixColumn a0 a1 a2 a3 ++ invMixColumns rest
  | _ => []

/-- One round of the inverse cipher, rounds 9 down to 1 (R176). -/
def aesInvRound (s rk : Bytes) : Bytes := invMixColumns (xorBytes (invSubBytes (invShiftRows s)) rk)

/-- `AES128_DEC(key, in)` with the round keys at hand (R176). -/
def aesDecryptWith (rks : List Bytes) (block : Bytes) : Bytes :=
  let s := xorBytes block (rks.getD 10 [])
  let s := ((rks.take 10).drop 1).reverse.foldl aesInvRound s
  xorBytes (invSubBytes (invShiftRows s)) (rks.getD 0 [])

/-- `AES128_DEC(key, in)` (R176), `key` and `in` of 16 bytes. -/
def aes128Dec (key block : Bytes) : Bytes := aesDecryptWith (aesRoundKeys key) block

/-- `ECB_DEC(key, ct)` (R177): each 16-byte block on its own, no chaining and no IV. -/
def ecbDec (key ct : Bytes) : Bytes := ((pieces 16 (ct.length / 16) ct).map (aes128Dec key)).flatten

end Sys2Proof.Machine
end

