-- ==== Sys2Proof/Machine/AuthCipher.lean ====
section
/-! DEFINITION. The authenticated-cipher sequencer, operation MACDEC (44_authcipher.md rules R190 to R200). -/

namespace Sys2Proof.Machine

/-- `Strip0(b)` (R197): every trailing `0x00` byte removed. -/
def strip0 (b : Bytes) : Bytes := (b.reverse.dropWhile (· == 0x00)).reverse

/-- `Unpad(plain)` (R196): strict PKCS7 where the tail is valid padding, the lenient fallback otherwise. -/
def unpad (plain : Bytes) : Bytes :=
  let n := plain.length
  let paddingLen := (plain.getD (n - 1) 0).toNat
  if paddingLen = 0 ∨ paddingLen > 16 then strip0 plain
  else if (plain.drop (n - paddingLen)).all (·.toNat == paddingLen) then plain.take (n - paddingLen)
  else strip0 plain

/-- `MacDec(secret, buffer)` (R190): the steps of R191 to R196 in order. -/
def macDec (secret buffer : Bytes) : Except CryptoErr Bytes :=
  if buffer.length ≤ 2 then .error .tooShort
  else if slice buffer 0 2 ≠ tag2 secret (buffer.drop 2) then .error .authenticationFailed
  else if (buffer.drop 2).length % Config.blockLen ≠ 0 then .error .invalidBlockLength
  else .ok (unpad (ecbDec (secret.take Config.aesKeyLen) (buffer.drop 2)))

/-- MACDEC (R190); with no secret it is `Refused(NoKey)`, the phase being `RUN` all the same (R199, R254). -/
def execMacdec (buffer : Bytes) (s : State) : Host.Outcome State Fault Refusal :=
  .next (s.accept (okBytes s.params buffer) fun s =>
    s.enterRun.finish (match s.secret? with
      | none => .refused .noKey
      | some secret => match macDec secret buffer with | .ok plain => .ok (.bytes plain) | .error e => .err (.crypto e)))

end Sys2Proof.Machine
end

