-- ==== Sys2Proof/Machine/Binary64.lean ====
section
/-! DEFINITION. The division of a signed 32-bit integer by 1000000 in IEEE-754 binary64, rounded to nearest, ties to
even (45_payload_decoders.md rule R232). -/

namespace Sys2Proof.Machine

/-- The divisor of R215 and R232, one degree in units of `lat_raw`. -/
def degreeUnits : Nat := 1000000

/-- `floor(log2(n / 10^6)) + 40` for `n >= 1`: `n / 10^6` is at least `2^-20`, so the quotient below is positive. -/
def scaledLog (n : Nat) : Nat := Nat.log2 (n * 2 ^ 40 / degreeUnits)

/-- The 53-bit significand of `n / 10^6` rounded to nearest, ties to even; `2^53` when the rounding carries. -/
def roundedSignificand (n : Nat) : Nat :=
  let scaled := n * 2 ^ (92 - scaledLog n)
  let q := scaled / degreeUnits
  let r := scaled % degreeUnits
  if 2 * r > degreeUnits ∨ (2 * r = degreeUnits ∧ q % 2 = 1) then q + 1 else q

/-- The binary64 pattern of `n / 10^6` without its sign bit. A significand that carried to `2^53` adds one to the
exponent field, as it should. -/
def magnitudeBits (n : Nat) : Nat :=
  if n = 0 then 0 else (scaledLog n + 983) * 2 ^ 52 + (roundedSignificand n - 2 ^ 52)

/-- `raw / 1e6` as a binary64 (R232); zero is `+0` (log entry 13). -/
def divMillion (raw : Int) : F64 :=
  BitVec.ofNat 64 ((if raw < 0 then 2 ^ 63 else 0) + magnitudeBits raw.natAbs)

/-- The rational value of a finite binary64 pattern, for statements about `divMillion`. -/
def f64Value (b : F64) : ℚ :=
  let e : ℕ := (b.toNat / 2 ^ 52) % 2 ^ 11
  let m : ℕ := b.toNat % 2 ^ 52
  let mag : ℚ := if e = 0 then (m : ℚ) / 2 ^ 1074 else ((2 ^ 52 + m : ℕ) : ℚ) * 2 ^ e / 2 ^ 1075
  if b.toNat ≥ 2 ^ 63 then -mag else mag

/-- A binary64 pattern that is neither an infinity nor a NaN. -/
def f64Finite (b : F64) : Bool := (b.toNat / 2 ^ 52) % 2 ^ 11 != 2 ^ 11 - 1

end Sys2Proof.Machine
end

