-- ==== Sys2Proof/Machine/Utf8.lean ====
section
/-! DEFINITION. `Utf8Lossy`, UTF-8 decoding that drops invalid bytes one at a time (45_payload_decoders.md rule R219),
and the optional readable rendering of opaque payloads (R229). -/

namespace Sys2Proof.Machine

/-- `lo <= b <= hi`. -/
def byteIn (lo hi b : Byte) : Bool := lo.toNat ≤ b.toNat && b.toNat ≤ hi.toNat

/-- A continuation byte `C` of the table of R219. -/
def isCont (b : Byte) : Bool := byteIn 0x80 0xBF b

/-- The low bits of a byte of a sequence, as the last column of the table of R219 takes them. -/
def lowBits (mask b : Byte) : Nat := (b &&& mask).toNat

/-- The range of the second byte of a three-byte sequence (R219): `E0` and `ED` have their own. -/
def second3 (b1 b2 : Byte) : Bool :=
  if b1 = 0xE0 then byteIn 0xA0 0xBF b2 else if b1 = 0xED then byteIn 0x80 0x9F b2 else isCont b2

/-- The range of the second byte of a four-byte sequence (R219): `F0` and `F4` have their own. -/
def second4 (b1 b2 : Byte) : Bool :=
  if b1 = 0xF0 then byteIn 0x90 0xBF b2 else if b1 = 0xF4 then byteIn 0x80 0x8F b2 else isCont b2

/-- The row of the table of R219 that matches at the start of a byte string: the code point and the row's length. -/
def utf8Match (b : Bytes) : Option (Nat × Nat) :=
  match b with
  | [] => none
  | b1 :: t =>
    if byteIn 0x00 0x7F b1 then some (b1.toNat, 1)
    else if byteIn 0xC2 0xDF b1 then
      match t with
      | b2 :: _ => if isCont b2 then some (lowBits 0x1F b1 * 64 + lowBits 0x3F b2, 2) else none
      | _ => none
    else if byteIn 0xE0 0xEF b1 then
      match t with
      | b2 :: b3 :: _ =>
        if second3 b1 b2 && isCont b3 then
          some (lowBits 0x0F b1 * 4096 + lowBits 0x3F b2 * 64 + lowBits 0x3F b3, 3)
        else none
      | _ => none
    else if byteIn 0xF0 0xF4 b1 then
      match t with
      | b2 :: b3 :: b4 :: _ =>
        if second4 b1 b2 && isCont b3 && isCont b4 then
          some (lowBits 0x07 b1 * 262144 + lowBits 0x3F b2 * 4096 + lowBits 0x3F b3 * 64 + lowBits 0x3F b4, 4)
        else none
      | _ => none
    else none

/-- The scan of R219 with `skip` bytes of the row just matched still to pass. -/
def utf8Scan : Nat → Bytes → Text
  | _, [] => []
  | skip + 1, _ :: t => utf8Scan skip t
  | 0, b1 :: t =>
    match utf8Match (b1 :: t) with
    | some (cp, len) => Char.ofNat cp :: utf8Scan (len - 1) t
    | none => utf8Scan 0 t

/-- `Utf8Lossy(b)` (R219). -/
def utf8Lossy (b : Bytes) : Text := utf8Scan 0 b

/-- What `Render` shows for one byte (R229). -/
def renderByte (p : Params) (x : Byte) : Text :=
  if byteIn 0x20 0x7E x then [Char.ofNat x.toNat] else if x = 0x00 then p.nulEscape else [p.placeholder]

/-- `Render(data)` (R229), optional and not part of `RES`. -/
def render (p : Params) (data : Bytes) : Text := (data.map (renderByte p)).flatten

end Sys2Proof.Machine
end

