-- ==== Sys2Proof/Machine/PayloadDecoders.lean ====
section
/-! DEFINITION. The per-payload-type decoders, operation PLDECODE and the sixteen dispatch rows of format HDR
(45_payload_decoders.md rules R210 to R233; the payload formats are R86 to R90). -/

namespace Sys2Proof.Machine

/-- The advert kind of a flags byte, its low nibble (R214). -/
def advertKind (flags : Byte) : AdvertKind :=
  let k : BitVec 4 := (flags &&& 0x0F).setWidth 4
  if k = 0 then .none else if k = 1 then .chat else if k = 2 then .repeater else if k = 3 then .room
  else if k = 4 then .sensor else .unknown k

/-- A flagged optional field of `n` bytes at the cursor (R215 to R217, R220): read only if the flag is set and the bytes
are there; an omitted field leaves the cursor where it was. -/
def optField (flag : Bool) (n : Nat) (c : Cursor) : Option Bytes × Cursor :=
  if flag then
    match c.take n with
    | some (b, c) => (some b, c)
    | none => (none, c)
  else (none, c)

/-- `name_bytes` (R218): from the cursor up to the first `0x00` or the end, when the flag is set and a byte remains. -/
def optName (flag : Bool) (c : Cursor) : Option Bytes :=
  if flag && c.pos < c.buf.length then some (c.rest.takeWhile (· != 0x00)) else none

/-- The record of the fixed prefix, with every optional field absent (R212, R213). -/
def advertPrefix (p : Bytes) : AdvertRecord where
  pubKey := slice p 0 32
  timestamp := le32 (slice p 32 36)
  signature := slice p 36 100
  kind := .none
  flags := none
  latRaw := none
  lonRaw := none
  lat := none
  lon := none
  extra1 := none
  extra2 := none
  nameBytes := none
  name := none

/-- The fields of `app_data` (R213 to R218): the flags byte, then latlon, extra1, extra2 and name at one cursor. -/
def advertFields (r : AdvertRecord) (app : Bytes) : AdvertRecord :=
  match app with
  | [] => r
  | flags :: _ =>
    let latlon := optField (flags &&& 0x10 != 0) 8 ⟨app, 1⟩
    let x1 := optField (flags &&& 0x20 != 0) 2 latlon.2
    let x2 := optField (flags &&& 0x40 != 0) 2 x1.2
    let nameBytes := optName (flags &&& 0x80 != 0) x2.2
    let latRaw := latlon.1.map fun b => s32 (le32 (slice b 0 4))
    let lonRaw := latlon.1.map fun b => s32 (le32 (slice b 4 8))
    { r with
      kind := advertKind flags
      flags := some flags
      latRaw := latRaw
      lonRaw := lonRaw
      lat := latRaw.map divMillion
      lon := lonRaw.map divMillion
      extra1 := x1.1.map le16
      extra2 := x2.1.map le16
      nameBytes := nameBytes
      name := nameBytes.map utf8Lossy }

/-- DecodeAdvert (R212 to R220): the only decoder with an error, `Packet.Truncated` under 100 bytes. -/
def decodeAdvert (p : Bytes) : PayloadOutcome :=
  if p.length < Config.advertPrefixLen then .malformedTruncated
  else .decoded (.advert (advertFields (advertPrefix p) (p.drop Config.advertPrefixLen)))

/-- The undecryptable reason of a crypto error (R231). -/
def undecOf : CryptoErr → UndecReason
  | .tooShort => .cryptoTooShort
  | .authenticationFailed => .authenticationFailed
  | .invalidBlockLength => .invalidBlockLength

/-- `GroupBodyOf(plain)` (R222). -/
def groupBodyOf (plain : Bytes) : Option GroupBody :=
  if plain.length < 5 then none
  else
    let flags := plain.getD 4 0
    let subType : BitVec 6 := (flags >>> 2).setWidth 6
    let text := if subType = 0 then some (plain.drop 5) else none
    some { timestamp := le32 (slice plain 0 4), flags := flags, subType := subType,
           textBytes := text, text := text.map utf8Lossy }

/-- DecodeGroup (R221): the missing secret is tested before the length. -/
def decodeGroup (secret? : Option Bytes) (t : GroupType) (p : Bytes) : PayloadOutcome :=
  match secret? with
  | none => .undecryptable .noSecret []
  | some secret =>
    if p.length < 3 then .undecryptable .payloadTooShort []
    else
      let channelHash := p.getD 0 0
      match macDec secret (p.drop 1) with
      | .error e => .undecryptable (undecOf e) [channelHash]
      | .ok plain => .decoded (.group t channelHash plain (groupBodyOf plain))

/-- `PeerBodyOf` for TXT_MSG (R225). -/
def textBodyOf (plain : Bytes) : Option PeerBody :=
  if plain.length < 5 then none
  else
    let textBytes := strip0 (plain.drop 5)
    some (.text (le32 (slice plain 0 4)) (plain.getD 4 0) textBytes (utf8Lossy textBytes))

/-- `PeerBodyOf` for REQ and RESPONSE (R226). -/
def taggedBodyOf (plain : Bytes) : Option PeerBody :=
  if plain.length < 4 then none else some (.tagged (le32 (slice plain 0 4)) (plain.drop 4))

/-- `PeerBodyOf(name, plain)` (R225 to R227): PATH has none. -/
def peerBodyOf (t : PeerType) (plain : Bytes) : Option PeerBody :=
  match t with
  | .txtMsg => textBodyOf plain
  | .req => taggedBodyOf plain
  | .response => taggedBodyOf plain
  | .path => none

/-- DecodePeer (R224): the missing secret is tested before the length. -/
def decodePeer (secret? : Option Bytes) (t : PeerType) (p : Bytes) : PayloadOutcome :=
  match secret? with
  | none => .undecryptable .noSecret []
  | some secret =>
    if p.length < 4 then .undecryptable .payloadTooShort []
    else
      let hash0 := p.getD 0 0
      let hash1 := p.getD 1 0
      match macDec secret (p.drop 2) with
      | .error e => .undecryptable (undecOf e) [hash0, hash1]
      | .ok plain => .decoded (.peer t hash0 hash1 plain (peerBodyOf t plain))

/-- DecodeAck (R228): never encrypted, never an error. -/
def decodeAck (p : Bytes) : PayloadOutcome :=
  .decoded (.ack (if p.length ≥ 4 then some (le32 (slice p 0 4)) else none))

/-- The dispatch of R210 by the type a code has: ADVERT, GROUP, PEER, ACK, OPAQUE (R229) and UNKNOWN (R230). -/
def decodePayload (secret? : Option Bytes) (t : PType) (code : BitVec 4) (p : Bytes) : PayloadOutcome :=
  match t with
  | .advert => decodeAdvert p
  | .group g => decodeGroup secret? g p
  | .peer r => decodePeer secret? r p
  | .ack => decodeAck p
  | .opaq o => .decoded (.opaq o p)
  | .unknown => .decoded (.unknown code)

/-- How a payload outcome ends PLDECODE (R210, R271). -/
def payloadEnd : PayloadOutcome → OpOutcome
  | .decoded d => .ok (.decoded d)
  | .malformedTruncated => .err (.packet .truncated)
  | .undecryptable r clear => .undecryptable r clear

/-- PLDECODE of an accepted payload under a given type and code (R210): what the operation and each HDR row perform. -/
def State.decodeAs (t : PType) (code : BitVec 4) (p : Bytes) (s : State) : State :=
  s.enterRun.finish (payloadEnd (decodePayload s.secret? t code p))

/-- PLDECODE (R210): the type is what the instance's table `PTYPE_CLASS` gives the code. -/
def execPldecode (pt : Byte) (payload : Bytes) (s : State) : Host.Outcome State Fault Refusal :=
  .next (s.accept (okU4 pt && okBytes s.params payload)
    (State.decodeAs (ptypeOf s.params (pt.setWidth 4)) (pt.setWidth 4) payload))

/-- A dispatch row of the opcode table (R91, R210): the payload decoded as the row's own type; the header's other
fields play no part. -/
def State.dispatchRow (t : PType) (code : BitVec 4) (payload : Bytes) (s : State) : State :=
  s.accept (okBytes s.params payload) (State.decodeAs t code payload)

/-- HDR row REQ (R210, R224, R226). -/
def execReq (_ver _rt : BitVec 2) (payload : Bytes) (s : State) : Host.Outcome State Fault Refusal :=
  .next (s.dispatchRow (.peer .req) 0x0 payload)

/-- HDR row RESPONSE (R210, R224, R226). -/
def execResponse (_ver _rt : BitVec 2) (payload : Bytes) (s : State) : Host.Outcome State Fault Refusal :=
  .next (s.dispatchRow (.peer .response) 0x1 payload)

/-- HDR row TXT_MSG (R210, R224, R225). -/
def execTxtMsg (_ver _rt : BitVec 2) (payload : Bytes) (s : State) : Host.Outcome State Fault Refusal :=
  .next (s.dispatchRow (.peer .txtMsg) 0x2 payload)

/-- HDR row ACK (R210, R228). -/
def execAck (_ver _rt : BitVec 2) (payload : Bytes) (s : State) : Host.Outcome State Fault Refusal :=
  .next (s.dispatchRow .ack 0x3 payload)

/-- HDR row ADVERT (R210, R212 to R220). -/
def execAdvert (_ver _rt : BitVec 2) (payload : Bytes) (s : State) : Host.Outcome State Fault Refusal :=
  .next (s.dispatchRow .advert 0x4 payload)

/-- HDR row GRP_TXT (R210, R221, R222). -/
def execGrpTxt (_ver _rt : BitVec 2) (payload : Bytes) (s : State) : Host.Outcome State Fault Refusal :=
  .next (s.dispatchRow (.group .grpTxt) 0x5 payload)

/-- HDR row GRP_DATA (R210, R221, R222). -/
def execGrpData (_ver _rt : BitVec 2) (payload : Bytes) (s : State) : Host.Outcome State Fault Refusal :=
  .next (s.dispatchRow (.group .grpData) 0x6 payload)

/-- HDR row UNKNOWN_7 (R210, R230). -/
def execUnknown7 (_ver _rt : BitVec 2) (payload : Bytes) (s : State) : Host.Outcome State Fault Refusal :=
  .next (s.dispatchRow .unknown 0x7 payload)

/-- HDR row PATH (R210, R224, R227). -/
def execPath (_ver _rt : BitVec 2) (payload : Bytes) (s : State) : Host.Outcome State Fault Refusal :=
  .next (s.dispatchRow (.peer .path) 0x8 payload)

/-- HDR row UNKNOWN_9 (R210, R230). -/
def execUnknown9 (_ver _rt : BitVec 2) (payload : Bytes) (s : State) : Host.Outcome State Fault Refusal :=
  .next (s.dispatchRow .unknown 0x9 payload)

/-- HDR row UNKNOWN_A (R210, R230). -/
def execUnknownA (_ver _rt : BitVec 2) (payload : Bytes) (s : State) : Host.Outcome State Fault Refusal :=
  .next (s.dispatchRow .unknown 0xA payload)

/-- HDR row CONTROL (R210, R229). -/
def execControl (_ver _rt : BitVec 2) (payload : Bytes) (s : State) : Host.Outcome State Fault Refusal :=
  .next (s.dispatchRow (.opaq .control) 0xB payload)

/-- HDR row UNKNOWN_C (R210, R230). -/
def execUnknownC (_ver _rt : BitVec 2) (payload : Bytes) (s : State) : Host.Outcome State Fault Refusal :=
  .next (s.dispatchRow .unknown 0xC payload)

/-- HDR row UNKNOWN_D (R210, R230). -/
def execUnknownD (_ver _rt : BitVec 2) (payload : Bytes) (s : State) : Host.Outcome State Fault Refusal :=
  .next (s.dispatchRow .unknown 0xD payload)

/-- HDR row UNKNOWN_E (R210, R230). -/
def execUnknownE (_ver _rt : BitVec 2) (payload : Bytes) (s : State) : Host.Outcome State Fault Refusal :=
  .next (s.dispatchRow .unknown 0xE payload)

/-- HDR row RAW_CUSTOM (R210, R229). -/
def execRawCustom (_ver _rt : BitVec 2) (payload : Bytes) (s : State) : Host.Outcome State Fault Refusal :=
  .next (s.dispatchRow (.opaq .rawCustom) 0xF payload)

end Sys2Proof.Machine
end

