-- ==== Sys2Proof/Machine/System.lean ====
section
/-! DEFINITION. The system operations NOP and SETKEY and the composites RXFRAME and TXFRAME (46_system_ops.md rules R250
to R254). -/

namespace Sys2Proof.Machine

/-- NOP (R251): never fails, never refused, writes the result registers only. -/
def execNop (s : State) : Host.Outcome State Fault Refusal := .next (s.complete .nothing)

/-- SETKEY once its operand is accepted (R250): refused in phase `RUN` (R254 (3)). -/
def State.setKey (k : Bytes) (s : State) : State :=
  match s.phase with
  | .run => s.refuse .keyLocked
  | .config => (s.installKey k).complete .nothing

/-- SETKEY (R250). -/
def execSetkey (k : Bytes) (s : State) : Host.Outcome State Fault Refusal :=
  .next (s.accept (okBytes s.params k) (State.setKey k))

/-- The three stages of RXFRAME (R252): envelope, packet, payload; the payload's outcome is inside the result. -/
def rxframe (p : Params) (secret? : Option Bytes) (raw : Bytes) : Except Err (Packet × PayloadOutcome) :=
  match unwrap raw with
  | .error e => .error (.frame e)
  | .ok body =>
    match pdecode body with
    | .error e => .error (.packet e)
    | .ok pkt =>
      .ok (pkt, decodePayload secret? (ptypeOf p pkt.payloadType) pkt.payloadType pkt.payload)

/-- RXFRAME (R252). -/
def execRxframe (raw : Bytes) (s : State) : Host.Outcome State Fault Refusal :=
  .next (s.accept (okBytes s.params raw) fun s =>
    s.enterRun.finish (match rxframe s.params s.secret? raw with
      | .ok (pkt, po) => .ok (.received pkt po)
      | .error e => .err e))

/-- TXFRAME (R253): `WRAP(PENCODE(...))`. -/
def execTxframe (rt pt : Byte) (path payload : Bytes) (s : State) : Host.Outcome State Fault Refusal :=
  .next (s.accept (okPencode s.params pt path payload)
    (State.complete (.bytes (wrap (pencode rt pt path payload)))))

end Sys2Proof.Machine
end

