-- ==== Sys2Proof/Machine/Dispatch.lean ====
section
/-! DEFINITION. The dispatch of an instruction to its meaning, one arm for each row of spec/opcode_table.json. -/

namespace Sys2Proof.Machine

def exec (i : Instr) (s : State) : Host.Outcome State Fault Refusal :=
  match i with
  | .nop => Sys2Proof.Machine.execNop s
  | .cksum data => Sys2Proof.Machine.execCksum data s
  | .unwrap raw => Sys2Proof.Machine.execUnwrap raw s
  | .wrap body => Sys2Proof.Machine.execWrap body s
  | .pdecode body => Sys2Proof.Machine.execPdecode body s
  | .pencode rt pt path payload => Sys2Proof.Machine.execPencode rt pt path payload s
  | .pencodex rt pt hi tc path payload => Sys2Proof.Machine.execPencodex rt pt hi tc path payload s
  | .macdec buffer => Sys2Proof.Machine.execMacdec buffer s
  | .pldecode pt payload => Sys2Proof.Machine.execPldecode pt payload s
  | .rxframe raw => Sys2Proof.Machine.execRxframe raw s
  | .txframe rt pt path payload => Sys2Proof.Machine.execTxframe rt pt path payload s
  | .setkey k => Sys2Proof.Machine.execSetkey k s
  | .req ver rt payload => Sys2Proof.Machine.execReq ver rt payload s
  | .response ver rt payload => Sys2Proof.Machine.execResponse ver rt payload s
  | .txtMsg ver rt payload => Sys2Proof.Machine.execTxtMsg ver rt payload s
  | .ack ver rt payload => Sys2Proof.Machine.execAck ver rt payload s
  | .advert ver rt payload => Sys2Proof.Machine.execAdvert ver rt payload s
  | .grpTxt ver rt payload => Sys2Proof.Machine.execGrpTxt ver rt payload s
  | .grpData ver rt payload => Sys2Proof.Machine.execGrpData ver rt payload s
  | .unknown7 ver rt payload => Sys2Proof.Machine.execUnknown7 ver rt payload s
  | .path ver rt payload => Sys2Proof.Machine.execPath ver rt payload s
  | .unknown9 ver rt payload => Sys2Proof.Machine.execUnknown9 ver rt payload s
  | .unknownA ver rt payload => Sys2Proof.Machine.execUnknownA ver rt payload s
  | .control ver rt payload => Sys2Proof.Machine.execControl ver rt payload s
  | .unknownC ver rt payload => Sys2Proof.Machine.execUnknownC ver rt payload s
  | .unknownD ver rt payload => Sys2Proof.Machine.execUnknownD ver rt payload s
  | .unknownE ver rt payload => Sys2Proof.Machine.execUnknownE ver rt payload s
  | .rawCustom ver rt payload => Sys2Proof.Machine.execRawCustom ver rt payload s

end Sys2Proof.Machine
end

