-- ==== Sys2Proof/WellFormed.lean ====
section
/-! DEFINITION. Well-formed instructions: the terms whose operands are in the ranges of R94 and R256 and which the
command stream CS1 can carry (a byte string of at most 65535 bytes, a path of at most 255). -/

namespace Sys2Proof

/-- A `bytes` operand that CS1 can carry: its length fits a `u16` (R94). -/
def wfBytes (b : Bytes) : Bool := b.length ≤ Config.maxCs1

/-- A `bytes(0..255)` operand: its length fits a `u8` (R30, R94). -/
def wfPath (b : Bytes) : Bool := b.length ≤ Config.maxPath

/-- A `u4` operand (R94). -/
def wfU4 (v : Byte) : Bool := v.toNat < 16

/-- A `u2` operand (R94). -/
def wfU2 (v : Byte) : Bool := v.toNat < 4

/-- Transport codes are present exactly when bit 1 of `hi` is set (R94, R146). -/
def wfTc (hi : Byte) (tc : Option (Half × Half)) : Bool := tc.isSome == hi.getLsbD 1

/-- A well-formed instruction. An HDR row's fields have their widths by type, and its payload is the remainder of a
body, of any length (R81). -/
def Instr.wf : Instr → Bool
  | .nop => true
  | .cksum data => wfBytes data
  | .unwrap raw => wfBytes raw
  | .wrap body => wfBytes body
  | .pdecode body => wfBytes body
  | .pencode _ pt p payload => wfU4 pt && wfPath p && wfBytes payload
  | .pencodex _ pt hi tc p payload => wfU4 pt && wfU2 hi && wfTc hi tc && wfPath p && wfBytes payload
  | .macdec buffer => wfBytes buffer
  | .pldecode pt payload => wfU4 pt && wfBytes payload
  | .rxframe raw => wfBytes raw
  | .txframe _ pt p payload => wfU4 pt && wfPath p && wfBytes payload
  | .setkey k => wfBytes k
  | .req _ _ _ => true
  | .response _ _ _ => true
  | .txtMsg _ _ _ => true
  | .ack _ _ _ => true
  | .advert _ _ _ => true
  | .grpTxt _ _ _ => true
  | .grpData _ _ _ => true
  | .unknown7 _ _ _ => true
  | .path _ _ _ => true
  | .unknown9 _ _ _ => true
  | .unknownA _ _ _ => true
  | .control _ _ _ => true
  | .unknownC _ _ _ => true
  | .unknownD _ _ _ => true
  | .unknownE _ _ _ => true
  | .rawCustom _ _ _ => true

end Sys2Proof
end

