-- ==== Sys2Proof/Decode.lean ====
section
/-! DEFINITION. The decoder and, after it, the encoder. A command is read front to back from the bytes of a command
stream in the format CS1 (30_encoding.md rules R93, R94, R96); what cannot be delimited is rejected by name. A payload
is put under a dispatch row by bits 5:2 of its header byte (R82, R91, R210). -/

namespace Sys2Proof

open Machine

/-- Why the bytes at the head of a stream are no command. Both end the stream (R94, R255); the block records a refusal. -/
inductive CmdReject where
  /-- The opcode byte is not one of the twelve assigned (R93, R255). -/
  | unknownOpcode
  /-- The stream ends inside the command (R94, R256). -/
  | cutShort
  deriving DecidableEq, Repr

/-- The twelve assigned opcodes (R93). -/
def opcodes : List Byte := [0x00, 0x01, 0x02, 0x03, 0x04, 0x05, 0x06, 0x07, 0x08, 0x09, 0x0A, 0x10]

/-- The next `n` bytes and what follows them; `none` when fewer remain. -/
def getBytes (n : Nat) (b : Bytes) : Option (Bytes × Bytes) :=
  if n ≤ b.length then some (b.take n, b.drop n) else none

/-- A one-byte operand (R94). -/
def getByte (b : Bytes) : Option (Byte × Bytes) :=
  match b with
  | [] => none
  | x :: t => some (x, t)

/-- A `bytes` operand: `n: u16` little-endian, then `n` bytes (R94). -/
def getString (b : Bytes) : Option (Bytes × Bytes) :=
  match getBytes 2 b with
  | none => none
  | some (n, t) => getBytes (le16 n).toNat t

/-- A `bytes(0..255)` operand: `n: u8`, then `n` bytes (R94). -/
def getPath (b : Bytes) : Option (Bytes × Bytes) :=
  match getByte b with
  | none => none
  | some (n, t) => getBytes n.toNat t

/-- The `Option<(u16,u16)>` operand: present, as two little-endian `u16`, exactly when `hi & 2` is not 0 (R94). -/
def getTc (hi : Byte) (b : Bytes) : Option (Option (Half × Half) × Bytes) :=
  if hi &&& 2 ≠ 0 then
    match getBytes 4 b with
    | none => none
    | some (t, rest) => some (some (le16 (slice t 0 2), le16 (slice t 2 4)), rest)
  else some (none, b)

/-- A command with one `bytes` operand. -/
def getWith (mk : Bytes → Instr) (b : Bytes) : Option (Instr × Bytes) :=
  match getString b with
  | none => none
  | some (x, rest) => some (mk x, rest)

/-- The operands of PENCODE and of TXFRAME: `rt pt plen path n payload` (R94). -/
def getPacket (mk : Byte → Byte → Bytes → Bytes → Instr) (b : Bytes) : Option (Instr × Bytes) :=
  match getByte b with
  | none => none
  | some (rt, b) =>
    match getByte b with
    | none => none
    | some (pt, b) =>
      match getPath b with
      | none => none
      | some (path, b) => getWith (mk rt pt path) b

/-- The operands of PENCODEX: `rt pt hi [tc] plen path n payload` (R94). -/
def getPacketX (b : Bytes) : Option (Instr × Bytes) :=
  match getByte b with
  | none => none
  | some (rt, b) =>
    match getByte b with
    | none => none
    | some (pt, b) =>
      match getByte b with
      | none => none
      | some (hi, b) =>
        match getTc hi b with
        | none => none
        | some (tc, b) =>
          match getPath b with
          | none => none
          | some (path, b) => getWith (Instr.pencodex rt pt hi tc path) b

/-- The operands of PLDECODE: `pt n payload` (R94). -/
def getPldecode (b : Bytes) : Option (Instr × Bytes) :=
  match getByte b with
  | none => none
  | some (pt, b) => getWith (Instr.pldecode pt) b

/-- The operands that follow an opcode (R94): `none` for an opcode that is not assigned, `some none` for operands that the
end of the stream cuts short. -/
def getOperands (op : Byte) (b : Bytes) : Option (Option (Instr × Bytes)) :=
  match op.toNat with
  | 0x00 => some (some (.nop, b))
  | 0x01 => some (getWith .cksum b)
  | 0x02 => some (getWith .unwrap b)
  | 0x03 => some (getWith .wrap b)
  | 0x04 => some (getWith .pdecode b)
  | 0x05 => some (getPacket .pencode b)
  | 0x06 => some (getPacketX b)
  | 0x07 => some (getWith .macdec b)
  | 0x08 => some (getPldecode b)
  | 0x09 => some (getWith .rxframe b)
  | 0x0A => some (getPacket .txframe b)
  | 0x10 => some (getWith .setkey b)
  | _ => none

/-- The first command of a stream, with the bytes that follow it, or the name of what is wrong. -/
def decodeCommand (b : Bytes) : Except CmdReject (Instr × Bytes) :=
  match b with
  | [] => .error .cutShort
  | op :: t =>
    match getOperands op t with
    | none => .error .unknownOpcode
    | some none => .error .cutShort
    | some (some r) => .ok r

/-- The dispatch rows of the opcode table in the order of their codes, bits 5:2 of the header (R91). -/
def hdrRows : Vector (BitVec 2 → BitVec 2 → Bytes → Instr) 16 :=
  #v[.req, .response, .txtMsg, .ack, .advert, .grpTxt, .grpData, .unknown7,
     .path, .unknown9, .unknownA, .control, .unknownC, .unknownD, .unknownE, .rawCustom]

/-- A payload under its header byte (R82, R91, R210): every one of the 256 header bytes decodes. -/
def decodeHeader (h : Byte) (payload : Bytes) : Instr :=
  hdrRows.get (hdrPayloadType h).toFin (hdrPayloadVersion h) (hdrRouteType h) payload

/-! The encoder, from the same formats (R94, R82). -/

/-- The length of a `bytes` operand, then its bytes (R94). -/
def putString (b : Bytes) : Bytes := bytes16 (BitVec.ofNat 16 b.length) ++ b

/-- The length of a path, then its bytes (R94). -/
def putPath (b : Bytes) : Bytes := BitVec.ofNat 8 b.length :: b

/-- The transport codes, where there are any (R94). -/
def putTc : Option (Half × Half) → Bytes
  | some (c0, c1) => bytes16 c0 ++ bytes16 c1
  | none => []

/-- The bytes of an instruction: a command in the format CS1, or a header byte and its payload. -/
def encode : Instr → Bytes
  | .nop => [0x00]
  | .cksum data => 0x01 :: putString data
  | .unwrap raw => 0x02 :: putString raw
  | .wrap body => 0x03 :: putString body
  | .pdecode body => 0x04 :: putString body
  | .pencode rt pt path payload => 0x05 :: rt :: pt :: (putPath path ++ putString payload)
  | .pencodex rt pt hi tc path payload =>
    0x06 :: rt :: pt :: hi :: (putTc tc ++ (putPath path ++ putString payload))
  | .macdec buffer => 0x07 :: putString buffer
  | .pldecode pt payload => 0x08 :: pt :: putString payload
  | .rxframe raw => 0x09 :: putString raw
  | .txframe rt pt path payload => 0x0A :: rt :: pt :: (putPath path ++ putString payload)
  | .setkey k => 0x10 :: putString k
  | .req ver rt p => hdrByte ver 0x0 rt :: p
  | .response ver rt p => hdrByte ver 0x1 rt :: p
  | .txtMsg ver rt p => hdrByte ver 0x2 rt :: p
  | .ack ver rt p => hdrByte ver 0x3 rt :: p
  | .advert ver rt p => hdrByte ver 0x4 rt :: p
  | .grpTxt ver rt p => hdrByte ver 0x5 rt :: p
  | .grpData ver rt p => hdrByte ver 0x6 rt :: p
  | .unknown7 ver rt p => hdrByte ver 0x7 rt :: p
  | .path ver rt p => hdrByte ver 0x8 rt :: p
  | .unknown9 ver rt p => hdrByte ver 0x9 rt :: p
  | .unknownA ver rt p => hdrByte ver 0xA rt :: p
  | .control ver rt p => hdrByte ver 0xB rt :: p
  | .unknownC ver rt p => hdrByte ver 0xC rt :: p
  | .unknownD ver rt p => hdrByte ver 0xD rt :: p
  | .unknownE ver rt p => hdrByte ver 0xE rt :: p
  | .rawCustom ver rt p => hdrByte ver 0xF rt :: p

/-! A word of the opcode table, bit 0 the least significant bit of the first byte. -/

/-- The bytes of a table word, the first byte first. -/
def wordBytes (nbits w : Nat) : Bytes :=
  (List.range ((nbits + 7) / 8)).map fun i => BitVec.ofNat 8 (w / 2 ^ (8 * i))

/-- The longest command that CS1 can carry: PENCODEX with transport codes, a path of 255 and a payload of 65535. -/
def longestCommand : Nat := 1 + 3 + 4 + 1 + Config.maxPath + 2 + Config.maxCs1

/-- Zero bytes put after the bytes of a command until it is complete, at most `n` of them. -/
def completeCommand : Nat → Bytes → Bytes
  | 0, b => b
  | n + 1, b =>
    match decodeCommand b with
    | .error .cutShort => completeCommand n (b ++ [0x00])
    | _ => b

/-- How a table word reaches the block: a command's bytes, complete, or a header byte with its payload bytes. -/
inductive TableForm where
  | command (cs1 : Bytes)
  | header (h : Byte) (payload : Bytes)
  deriving DecidableEq, Repr

/-- The form of a table word. The table numbers the words of both its formats from bit 0 of one byte, and a word does not
say which format it is of: DESIGN CHOICE (log entry 7), a first byte that is an assigned opcode is a command, any other
is a header byte. -/
def tableForm (nbits w : Nat) : Option TableForm :=
  match wordBytes nbits w with
  | [] => none
  | b :: t => if opcodes.contains b then some (.command (completeCommand longestCommand (b :: t))) else some (.header b t)

/-- The instruction that the decoder reads from a table word. -/
def decodeTableWord (nbits w : Nat) : Option Instr :=
  match tableForm nbits w with
  | none => none
  | some (.header h payload) => some (decodeHeader h payload)
  | some (.command b) =>
    match decodeCommand b with
    | .ok (i, _) => some i
    | .error _ => none

end Sys2Proof
end

