-- ==== Sys2Proof/Machine/Fetch.lean ====
section
/-! DEFINITION. How the block takes what the host has issued (R57, R61, R94, R300, R302, R311; DESIGN CHOICE, log entry
2): one item at a time, in the host's order; a stream gives up one command at a time. -/

namespace Sys2Proof.Machine

/-- What the block takes at one step, with the state in which it is taken. -/
inductive Taken where
  /-- Nothing is issued: the block waits (R302). -/
  | idle
  /-- The reset event, or the end of a stream: no operation is performed. -/
  | event (s : State)
  /-- Bytes that are no command: the refusal is recorded and the stream ends (R94, R255). -/
  | rejected (s : State)
  /-- An operation to perform. -/
  | run (i : Instr) (s : State)
  deriving DecidableEq, Repr

/-- The refusal that the block records for bytes that are no command (R94, R255, R256). -/
def rejectReason : CmdReject → RefuseReason
  | .unknownOpcode => .unknownOpcode
  | .cutShort => .badOperand

/-- What the host still has issued after a command: the rest of its stream, where there is one. -/
def afterCommand (rest : Bytes) (queue : List HostItem) : List HostItem :=
  if rest.isEmpty then queue else .stream rest :: queue

/-- The state with what is left of the host's items. -/
def State.withInbox (s : State) (queue : List HostItem) : State := { s with inbox := queue }

/-- What the block takes next. -/
def State.take (s : State) : Taken :=
  match s.inbox with
  | [] => .idle
  | .reset :: queue => .event (s.withInbox queue).applyReset
  | .command i :: queue => .run i (s.withInbox queue)
  | .payload h p :: queue => .run (decodeHeader h p) (s.withInbox queue)
  | .stream [] :: queue => .event (s.withInbox queue)
  | .stream (b :: t) :: queue =>
    match decodeCommand (b :: t) with
    | .ok (i, rest) => .run i (s.withInbox (afterCommand rest queue))
    | .error r => .rejected ((s.withInbox queue).refuse (rejectReason r))

/-- The item through which a table word reaches the block. -/
def itemOfWord (nbits w : Nat) : List HostItem :=
  match tableForm nbits w with
  | none => []
  | some (.command b) => [.stream b]
  | some (.header h payload) => [.payload h payload]

end Sys2Proof.Machine
end

