-- ==== Sys2Proof/Machine/Step.lean ====
section
/-! DEFINITION. One step of the block: it takes the next thing the host has issued, and performs it whole (R6, R57). -/

namespace Sys2Proof.Machine

/-- One step. With nothing issued the block is idle and the state stays (R302, R311). -/
def step (s : State) : Host.Outcome State Fault Refusal :=
  match s.take with
  | .idle => .next s
  | .event s' => .next s'
  | .rejected s' => .next s'
  | .run i s' => exec i s'

/-- The state with a table word issued as the next thing the block takes; nothing else is changed. -/
def State.withFetchWord (s : State) (nbits w : Nat) : State := s.withInbox (itemOfWord nbits w ++ s.inbox)

end Sys2Proof.Machine
end

