-- ==== Sys2Proof/Machine/AesForward.lean ====
section
/-! DEFINITION. The AES-128 forward cipher, `ECB_ENC` and `SEAL` (43_crypto_primitives.md rule R178). They are NOT part
of the block, which only decrypts (R5 (e)); no meaning calls them. They stand here so that the law of R200 can be
stated and cipher buffers can be built for tests. -/

namespace Sys2Proof.Machine

/-- `SubBytes` (R178). -/
def subBytes (s : Bytes) : Bytes := s.map sbox

/-- `ShiftRows` (R178): `s'[r + 4c] = s[r + 4*((c + r) mod 4)]`. -/
def shiftRows (s : Bytes) : Bytes :=
  [0, 5, 10, 15, 4, 9, 14, 3, 8, 13, 2, 7, 12, 1, 6, 11].map (s.getD · 0)

/-- One column of `MixColumns` (R178). -/
def mixColumn (a0 a1 a2 a3 : Byte) : Bytes :=
  [gmul a0 0x02 ^^^ gmul a1 0x03 ^^^ a2 ^^^ a3,
   a0 ^^^ gmul a1 0x02 ^^^ gmul a2 0x03 ^^^ a3,
   a0 ^^^ a1 ^^^ gmul a2 0x02 ^^^ gmul a3 0x03,
   gmul a0 0x03 ^^^ a1 ^^^ a2 ^^^ gmul a3 0x02]

/-- `MixColumns` (R178). -/
def mixColumns : Bytes → Bytes
  | a0 :: a1 :: a2 :: a3 :: rest => mixColumn a0 a1 a2 a3 ++ mixColumns rest
  | _ => []

/-- One of the rounds 1 to 9 (R178). -/
def aesRound (s rk : Bytes) : Bytes := xorBytes (mixColumns (shiftRows (subBytes s))) rk

/-- `AES128_ENC(key, in)` (R178). -/
def aes128Enc (key block : Bytes) : Bytes :=
  let rks := aesRoundKeys key
  let s := ((rks.take 10).drop 1).foldl aesRound (xorBytes block (rks.getD 0 []))
  xorBytes (shiftRows (subBytes s)) (rks.getD 10 [])

/-- `ECB_ENC(key, pt)` (R178). -/
def ecbEnc (key pt : Bytes) : Bytes := ((pieces 16 (pt.length / 16) pt).map (aes128Enc key)).flatten

/-- `SEAL(secret, pt)` (R178). -/
def sealBuffer (secret pt : Bytes) : Bytes :=
  let ct := ecbEnc (secret.take Config.aesKeyLen) pt
  tag2 secret ct ++ ct

end Sys2Proof.Machine
end

