-- ==== Sys2Proof/Machine/Instances.lean ====
section
/-! DEFINITION. Several instances of the block (60_exceptions.md rule R281, 20_memory.md rule R63): the product of the
single-instance machines. Each has its own state, they share nothing, and all start alike. -/

namespace Sys2Proof.Machine

/-- The states of the instances, by their number. -/
abbrev Cluster := List State

/-- `n` instances after reset (R281, R302); `Config.nInstances` is the default. -/
def Cluster.reset (n : Nat) : Cluster := List.replicate n State.reset

/-- One step of instance `k`; the others do not move. An instance that does not exist has no step. -/
def Cluster.stepAt (k : Nat) (c : Cluster) : Option Cluster :=
  match (c.drop k).head? with
  | none => none
  | some s =>
    match step s with
    | .next s' => some (c.set k s')
    | .fault _ => none
    | .refused _ => none

/-- The steps of an interleaving, by the number of the instance that moves. -/
def Cluster.run : List Nat → Cluster → Option Cluster
  | [], c => some c
  | k :: ks, c =>
    match Cluster.stepAt k c with
    | none => none
    | some c' => Cluster.run ks c'

end Sys2Proof.Machine
end

