-- ==== Sys2Proof/Machine/Run.lean ====
section
/-! DEFINITION. A run and its trace (70_reset_and_hazards.md rule R311): the end state, and the list of outcomes, one for
each command. -/

namespace Sys2Proof.Machine

/-- Whether the next step performs or refuses a command, and so adds an outcome to the trace. -/
def State.atCommand (s : State) : Bool :=
  match s.take with
  | .idle => false
  | .event _ => false
  | .rejected _ => true
  | .run _ _ => true

/-- At most `n` steps, until the host has nothing issued: the end state and the outcomes in order. -/
def runTrace : Nat → State → State × List OpOutcome
  | 0, s => (s, [])
  | n + 1, s =>
    if s.inbox.isEmpty then (s, [])
    else
      match step s with
      | .next s' =>
        let r := runTrace n s'
        (r.1, (if s.atCommand then s'.lastOutcome.toList else []) ++ r.2)
      | .fault _ => (s, [])
      | .refused _ => (s, [])

/-- The run of a command stream CS1 from reset (R311). Every command has at least one byte. -/
def runStream (cs1 : Bytes) : State × List OpOutcome :=
  runTrace (cs1.length + 1) (State.reset.withInbox [.stream cs1])

end Sys2Proof.Machine
end

