-- ==== Sys2Proof/Safety.lean ====
section
/-! DEFINITION. The terms in which claims about the block are stated: which contents of its registers an operation can
leave, which operations are decode operations, which outcome each operation may end in, and closed forms that the
rules state beside their pseudocode (the sums of R121, the encoding that R219 inverts). -/

namespace Sys2Proof.Machine

/-- Register contents that agree with one another (R23, R270 to R272, R254): `ERR` is `0x00` with `IDLE` and `OK` and a
code of the right table otherwise; `IDLE` means that nothing has happened since reset; an error or an undecryptable
outcome comes from a decode operation, so the phase is `RUN`; a crypto error needed a secret; `NoSecret` and `NoKey` mean
that there is none; `KeyLocked` means that the phase is `RUN`; the cleartext bytes are as many as R271 says. -/
def State.legal (s : State) : Bool :=
  match s.status with
  | .idle => s.phase == .config && !s.keyValid && s.err == 0x00
  | .ok => s.err == 0x00
  | .err =>
    s.phase == .run
      && ([0x11, 0x12, 0x13, 0x21, 0x22].contains s.err || (s.keyValid && [0x31, 0x32, 0x33].contains s.err))
  | .undec =>
    s.phase == .run
      && (match s.res with
          | .bytes clear =>
            if s.keyValid then
              (s.err == 0x42 && clear.isEmpty)
                || ([0x43, 0x44, 0x45].contains s.err && (clear.length == 1 || clear.length == 2))
            else s.err == 0x41 && clear.isEmpty
          | _ => false)
  | .refused =>
    [0xF1, 0xF4].contains s.err || (s.err == 0xF2 && s.phase == .run)
      || (s.err == 0xF3 && s.phase == .run && !s.keyValid)

/-- The five decode operations of R22. A dispatch row of format HDR is PLDECODE's own dispatch (R210). -/
def isDecodeOp : Instr → Bool
  | .unwrap _ | .pdecode _ | .macdec _ | .pldecode _ _ | .rxframe _ => true
  | .nop | .cksum _ | .wrap _ | .pencode _ _ _ _ | .pencodex _ _ _ _ _ _ | .txframe _ _ _ _ | .setkey _ => false
  | .req _ _ _ | .response _ _ _ | .txtMsg _ _ _ | .ack _ _ _ | .advert _ _ _ | .grpTxt _ _ _ | .grpData _ _ _
  | .unknown7 _ _ _ | .path _ _ _ | .unknown9 _ _ _ | .unknownA _ _ _ | .control _ _ _ | .unknownC _ _ _
  | .unknownD _ _ _ | .unknownE _ _ _ | .rawCustom _ _ _ => true

/-- SETKEY. -/
def isSetkey : Instr → Bool
  | .setkey _ => true
  | _ => false

/-- The byte strings among the operands (R93). -/
def byteOperands : Instr → List Bytes
  | .nop => []
  | .cksum b | .unwrap b | .wrap b | .pdecode b | .macdec b | .rxframe b | .setkey b => [b]
  | .pencode _ _ p b | .pencodex _ _ _ _ p b | .txframe _ _ p b => [p, b]
  | .pldecode _ b => [b]
  | .req _ _ b | .response _ _ b | .txtMsg _ _ b | .ack _ _ b | .advert _ _ b | .grpTxt _ _ b | .grpData _ _ b
  | .unknown7 _ _ b | .path _ _ b | .unknown9 _ _ b | .unknownA _ _ b | .control _ _ b | .unknownC _ _ b
  | .unknownD _ _ b | .unknownE _ _ b | .rawCustom _ _ b => [b]

/-- Some byte string operand is longer than the `MAXLEN` that the instance fixes (R256). -/
def overMaxLen (p : Params) (i : Instr) : Prop := ∃ m, p.maxLen = some m ∧ ∃ b ∈ byteOperands i, m < b.length

/-- A malformed operand, complete (R256): a byte string over `MAXLEN`, a payload type above 15, a `hi` above 3, transport
codes that do not go with bit 1 of `hi`; and, what cannot be presented, a path over 255 (log entry 9). -/
def malformed (p : Params) (i : Instr) : Prop :=
  overMaxLen p i ∨
    match i with
    | .pencode _ pt path _ | .txframe _ pt path _ => 15 < pt.toNat ∨ 255 < path.length
    | .pencodex _ pt hi tc path _ =>
      15 < pt.toNat ∨ 3 < hi.toNat ∨ tc.isSome ≠ decide (2 ≤ hi.toNat) ∨ 255 < path.length
    | .pldecode pt _ => 15 < pt.toNat
    | .nop | .cksum _ | .unwrap _ | .wrap _ | .pdecode _ | .macdec _ | .rxframe _ | .setkey _ => False
    | .req _ _ _ | .response _ _ _ | .txtMsg _ _ _ | .ack _ _ _ | .advert _ _ _ | .grpTxt _ _ _ | .grpData _ _ _
    | .unknown7 _ _ _ | .path _ _ _ | .unknown9 _ _ _ | .unknownA _ _ _ | .control _ _ _ | .unknownC _ _ _
    | .unknownD _ _ _ | .unknownE _ _ _ | .rawCustom _ _ _ => False

/-- `i` decodes the payload `p` as the type `t` under the code `code`: it is PLDECODE with that code where the instance's
table gives the code that type, or the dispatch row of that code in the opcode table (R91, R210). -/
def decodesAs (ps : Params) (t : PType) (code : BitVec 4) (p : Bytes) (i : Instr) : Prop :=
  (∃ pt : Byte, pt.toNat ≤ 15 ∧ pt.setWidth 4 = code ∧ ptypeOf ps code = t ∧ i = .pldecode pt p)
    ∨ (∃ ver rt, ptypeOf Params.default code = t ∧ i = hdrRows.get code.toFin ver rt p)

/-- The column `Err` of R273; a dispatch row ends as PLDECODE of its own type does. -/
def errCells : Instr → List Byte
  | .nop | .cksum _ | .wrap _ | .pencode _ _ _ _ | .pencodex _ _ _ _ _ _ | .txframe _ _ _ _ | .setkey _ => []
  | .unwrap _ => [0x11, 0x12, 0x13]
  | .pdecode _ => [0x21, 0x22]
  | .macdec _ => [0x31, 0x32, 0x33]
  | .pldecode _ _ => [0x22]
  | .rxframe _ => [0x11, 0x12, 0x13, 0x21, 0x22]
  | .advert _ _ _ => [0x22]
  | .req _ _ _ | .response _ _ _ | .txtMsg _ _ _ | .ack _ _ _ | .grpTxt _ _ _ | .grpData _ _ _
  | .unknown7 _ _ _ | .path _ _ _ | .unknown9 _ _ _ | .unknownA _ _ _ | .control _ _ _ | .unknownC _ _ _
  | .unknownD _ _ _ | .unknownE _ _ _ | .rawCustom _ _ _ => []

/-- The column `Undecryptable` of R273. -/
def undecCells : Instr → List Byte
  | .nop | .cksum _ | .unwrap _ | .wrap _ | .pdecode _ | .pencode _ _ _ _ | .pencodex _ _ _ _ _ _ | .macdec _
  | .rxframe _ | .txframe _ _ _ _ | .setkey _ => []
  | .pldecode _ _ | .req _ _ _ | .response _ _ _ | .txtMsg _ _ _ | .path _ _ _ | .grpTxt _ _ _ | .grpData _ _ _ =>
    [0x41, 0x42, 0x43, 0x44, 0x45]
  | .ack _ _ _ | .advert _ _ _ | .unknown7 _ _ _ | .unknown9 _ _ _ | .unknownA _ _ _ | .control _ _ _
  | .unknownC _ _ _ | .unknownD _ _ _ | .unknownE _ _ _ | .rawCustom _ _ _ => []

/-- The column `Refused` of R273, with its remarks: `BadOperand` of an operation that has no operand but a byte string is
for a string over `MAXLEN` only. -/
def refuseCell (p : Params) (i : Instr) (code : Byte) : Prop :=
  match i with
  | .nop => False
  | .pencode _ _ _ _ | .pencodex _ _ _ _ _ _ | .pldecode _ _ | .txframe _ _ _ _ => code = 0xF4
  | .macdec _ => code = 0xF3 ∨ (code = 0xF4 ∧ overMaxLen p i)
  | .setkey _ => code = 0xF2 ∨ (code = 0xF4 ∧ overMaxLen p i)
  | .cksum _ | .unwrap _ | .wrap _ | .pdecode _ | .rxframe _ => code = 0xF4 ∧ overMaxLen p i
  | .req _ _ _ | .response _ _ _ | .txtMsg _ _ _ | .ack _ _ _ | .advert _ _ _ | .grpTxt _ _ _ | .grpData _ _ _
  | .unknown7 _ _ _ | .path _ _ _ | .unknown9 _ _ _ | .unknownA _ _ _ | .control _ _ _ | .unknownC _ _ _
  | .unknownD _ _ _ | .unknownE _ _ _ | .rawCustom _ _ _ => code = 0xF4 ∧ overMaxLen p i

/-- The number of hash bytes before the cipher buffer of an encrypted type (R87, R88), `none` for the other types. -/
def hashBytes : PType → Option Nat
  | .group _ => some 1
  | .peer _ => some 2
  | .advert | .ack | .opaq _ | .unknown => none

/-- `s` and `t` differ in the result registers, the phase and the count of free values at most: the secret, the
parameters and what the host has issued are the same. -/
def sameContext (s t : State) : Prop :=
  t.params = s.params ∧ t.keyValid = s.keyValid ∧ t.key = s.key ∧ t.inbox = s.inbox

/-- The sum `SUM1` of R121 in closed form. -/
def closedSum1 (data : Bytes) : Nat := (data.map BitVec.toNat).sum % 255

/-- The weighted sum of R121 before its reduction: `n*data[0] + (n-1)*data[1] + ... + 1*data[n-1]`. -/
def weightedSum : Bytes → Nat
  | [] => 0
  | b :: t => (t.length + 1) * b.toNat + weightedSum t

/-- The sum `SUM2` of R121 in closed form. -/
def closedSum2 (data : Bytes) : Nat := weightedSum data % 255

/-- The table of R219 as it stands there: one row for each form of a well-formed sequence, by the range of each byte. -/
def utf8Rows : List (List (Nat × Nat)) :=
  [[(0x00, 0x7F)],
   [(0xC2, 0xDF), (0x80, 0xBF)],
   [(0xE0, 0xE0), (0xA0, 0xBF), (0x80, 0xBF)],
   [(0xE1, 0xEC), (0x80, 0xBF), (0x80, 0xBF)],
   [(0xEE, 0xEF), (0x80, 0xBF), (0x80, 0xBF)],
   [(0xED, 0xED), (0x80, 0x9F), (0x80, 0xBF)],
   [(0xF0, 0xF0), (0x90, 0xBF), (0x80, 0xBF), (0x80, 0xBF)],
   [(0xF1, 0xF3), (0x80, 0xBF), (0x80, 0xBF), (0x80, 0xBF)],
   [(0xF4, 0xF4), (0x80, 0x8F), (0x80, 0xBF), (0x80, 0xBF)]]

/-- A row of R219 matches at the start of a byte string: all of its bytes are present and in range. -/
def utf8RowMatches : List (Nat × Nat) → Bytes → Bool
  | [], _ => true
  | _ :: _, [] => false
  | r :: row, b :: t => decide (r.1 ≤ b.toNat) && decide (b.toNat ≤ r.2) && utf8RowMatches row t

/-- The UTF-8 encoding of one scalar value, by the rows of the table of R219. -/
def utf8EncodeChar (c : Char) : Bytes :=
  let n := c.toNat
  let cont (k : Nat) : Byte := BitVec.ofNat 8 (0x80 + n / 2 ^ (6 * k) % 64)
  if n < 0x80 then [BitVec.ofNat 8 n]
  else if n < 0x800 then [BitVec.ofNat 8 (0xC0 + n / 64), cont 0]
  else if n < 0x10000 then [BitVec.ofNat 8 (0xE0 + n / 4096), cont 1, cont 0]
  else [BitVec.ofNat 8 (0xF0 + n / 262144), cont 2, cont 1, cont 0]

/-- The UTF-8 encoding of a text. -/
def utf8EncodeText (t : Text) : Bytes := (t.map utf8EncodeChar).flatten

end Sys2Proof.Machine
end

