-- ==== Sys2Proof/Certificates/Slice0/Obligations.lean ====
section
/-! DEFINITION. The statements for the provers. Each is a property of the model that a rule of spec/ states, or that
follows from its rules; OBLIGATIONS.json says which. -/

open Sys2Proof Sys2Proof.Machine

/-! ### The checksum generator -/

/-- R121: the two sums equal their closed forms after every byte string, stay in 0 to 254, never exceed 509 and 508
before a reduction, and the result is `256*SUM2 + SUM1`, neither byte of which is `0xFF`. -/
def Obligations.FletcherArithmetic : Prop :=
  ∀ data : Bytes,
    (Sums.start.run data).sum1 = closedSum1 data ∧ (Sums.start.run data).sum2 = closedSum2 data
      ∧ closedSum1 data ≤ 254 ∧ closedSum2 data ≤ 254
      ∧ (∀ b : Byte, closedSum1 data + b.toNat ≤ 509
          ∧ closedSum2 data + (closedSum1 data + b.toNat) % 255 ≤ 508
          ∧ closedSum1 (data ++ [b]) = (closedSum1 data + b.toNat) % 255
          ∧ closedSum2 (data ++ [b]) = (closedSum2 data + closedSum1 (data ++ [b])) % 255)
      ∧ (fletcher16 data).toNat = 256 * closedSum2 data + closedSum1 data
      ∧ low (fletcher16 data) ≠ 0xFF ∧ high (fletcher16 data) ≠ 0xFF

/-- R120: CKSUM completes for every byte string, with the value that the loop of the rule computes (`sum1 i` and
`sum2 i` are the sums after `i` bytes), and writes the result registers only. -/
def Obligations.CksumComputesLoop : Prop :=
  ∀ (s : State) (data : Bytes) (sum1 sum2 : Nat → Nat),
    okBytes s.params data = true → sum1 0 = 0 → sum2 0 = 0 →
    (∀ i, i < data.length →
      sum1 (i + 1) = (sum1 i + (data.getD i 0).toNat) % 255 ∧ sum2 (i + 1) = (sum2 i + sum1 (i + 1)) % 255) →
    exec (.cksum data) s = .next { s with
      status := .ok, err := 0x00, res := .u16 (BitVec.ofNat 16 (sum2 data.length * 2 ^ 8 + sum1 data.length)) }

/-- R122: the empty input, the `0x00`/`0xFF` collision, leading zeros and appended zeros, single bytes, every single-bit
flip, order, and the exact set of results. -/
def Obligations.FletcherCornerCases : Prop :=
  fletcher16 [] = 0x0000
    ∧ (∀ p q : Bytes, fletcher16 (p ++ 0xFF :: q) = fletcher16 (p ++ 0x00 :: q))
    ∧ (∀ d : Bytes, fletcher16 (0x00 :: d) = fletcher16 d)
    ∧ (∀ d : Bytes, closedSum1 d ≠ 0 → fletcher16 (d ++ [0x00]) ≠ fletcher16 d)
    ∧ (∀ b : Byte, (fletcher16 [b]).toNat = 0x0101 * (b.toNat % 255))
    ∧ (∀ (p q : Bytes) (b : Byte) (k : Nat), k < 8 →
        fletcher16 (p ++ (b ^^^ (1 <<< k)) :: q) ≠ fletcher16 (p ++ b :: q))
    ∧ fletcher16 [0x01, 0x02] = 0x0403 ∧ fletcher16 [0x02, 0x01] = 0x0503
    ∧ (∀ v : Half, (∃ d, fletcher16 d = v) ↔ (low v ≠ 0xFF ∧ high v ≠ 0xFF))

/-! ### The frame envelope -/

/-- R131: WRAP completes for every body with the magic, the checksum in little-endian order (neither byte of it `0xFF`)
and the body, and writes the result registers only. -/
def Obligations.WrapBuildsFrame : Prop :=
  ∀ (s : State) (body : Bytes), okBytes s.params body = true →
    exec (.wrap body) s = .next { s with
        status := .ok
        err := 0x00
        res := .bytes ([0xC0, 0x3E, BitVec.ofNat 8 (closedSum1 body), BitVec.ofNat 8 (closedSum2 body)] ++ body) }
      ∧ closedSum1 body < 0xFF ∧ closedSum2 body < 0xFF

/-- R130: UNWRAP completes with the body of a valid frame; of an invalid one it raises the first error that applies, in
the order TooShort, BadMagic, ChecksumMismatch. The phase becomes `RUN` and the secret is unchanged in every case. -/
def Obligations.UnwrapValidates : Prop :=
  (∀ (s : State) (body : Bytes) (b2 b3 : Byte),
    okBytes s.params (0xC0 :: 0x3E :: b2 :: b3 :: body) = true →
    b2.toNat = closedSum1 body → b3.toNat = closedSum2 body →
    exec (.unwrap (0xC0 :: 0x3E :: b2 :: b3 :: body)) s =
      .next { s with phase := .run, status := .ok, err := 0x00, res := .bytes body })
  ∧ (∀ (s : State) (raw : Bytes), okBytes s.params raw = true → raw.length < 4 →
    ∃ t, exec (.unwrap raw) s = .next t ∧ t.status = .err ∧ t.err = 0x11 ∧ t.phase = .run ∧ sameContext s t)
  ∧ (∀ (s : State) (b0 b1 b2 b3 : Byte) (body : Bytes), okBytes s.params (b0 :: b1 :: b2 :: b3 :: body) = true →
    ¬(b0 = 0xC0 ∧ b1 = 0x3E) →
    ∃ t, exec (.unwrap (b0 :: b1 :: b2 :: b3 :: body)) s = .next t
      ∧ t.status = .err ∧ t.err = 0x12 ∧ t.phase = .run ∧ sameContext s t)
  ∧ (∀ (s : State) (b2 b3 : Byte) (body : Bytes), okBytes s.params (0xC0 :: 0x3E :: b2 :: b3 :: body) = true →
    ¬(b2.toNat = closedSum1 body ∧ b3.toNat = closedSum2 body) →
    ∃ t, exec (.unwrap (0xC0 :: 0x3E :: b2 :: b3 :: body)) s = .next t
      ∧ t.status = .err ∧ t.err = 0x13 ∧ t.phase = .run ∧ sameContext s t)

/-- R132: unwrapping a wrapped body gives it back, and wrapping an unwrapped frame gives the frame back. -/
def Obligations.FrameRoundTrip : Prop :=
  (∀ b : Bytes, unwrap (wrap b) = .ok b) ∧ (∀ raw b : Bytes, unwrap raw = .ok b → wrap b = raw)

/-! ### The packet codec -/

/-- R140 to R144: PDECODE completes on every body that is a header byte, four transport code bytes exactly when bit 7 is
set, a path with its length byte, and a payload; the fields are those bytes, read as the rules say. -/
def Obligations.PdecodeParsesBody : Prop :=
  ∀ (s : State) (h a b c d : Byte) (path payload : Bytes), path.length ≤ 255 →
    let t : Bytes := if 128 ≤ h.toNat then [a, b, c, d] else []
    let body := [h] ++ t ++ [BitVec.ofNat 8 path.length] ++ path ++ payload
    okBytes s.params body = true →
    exec (.pdecode body) s = .next { s with
      phase := .run
      status := .ok
      err := 0x00
      res := .packet {
        header := h
        routeType := BitVec.ofNat 2 (h.toNat % 4)
        payloadType := BitVec.ofNat 4 (h.toNat / 4 % 16)
        payloadVersion := BitVec.ofNat 2 (h.toNat / 64)
        hasTransport := decide (128 ≤ h.toNat)
        transportCodes :=
          if 128 ≤ h.toNat then
            some (BitVec.ofNat 16 (a.toNat + 256 * b.toNat), BitVec.ofNat 16 (c.toNat + 256 * d.toNat))
          else none
        path := path
        payload := payload } }

/-- R141 to R143, R149: PDECODE of an empty body is `EmptyBody`; of a body whose transport codes, path length or path
would run past its end it is `Truncated`. -/
def Obligations.PdecodeTruncates : Prop :=
  ∀ (s : State) (body : Bytes), okBytes s.params body = true →
    (body = [] →
      ∃ t, exec (.pdecode body) s = .next t ∧ t.status = .err ∧ t.err = 0x21 ∧ t.phase = .run ∧ sameContext s t)
    ∧ (∀ (h : Byte) (rest : Bytes), body = h :: rest →
      let n := if 128 ≤ h.toNat then 4 else 0
      rest.length < n + 1 + (rest.getD n 0).toNat →
      ∃ t, exec (.pdecode body) s = .next t ∧ t.status = .err ∧ t.err = 0x22 ∧ t.phase = .run ∧ sameContext s t)

/-- R145: PENCODE completes for every operand in range; the header is `payload_type * 4 + route_type mod 4`, at most
`0x3F`, and nothing but the result registers is written. -/
def Obligations.PencodeBuildsBody : Prop :=
  ∀ (s : State) (rt pt : Byte) (path payload : Bytes),
    pt.toNat ≤ 15 → path.length ≤ 255 → okBytes s.params path = true → okBytes s.params payload = true →
    pt.toNat * 4 + rt.toNat % 4 ≤ 0x3F
      ∧ exec (.pencode rt pt path payload) s = .next { s with
          status := .ok
          err := 0x00
          res := .bytes (BitVec.ofNat 8 (pt.toNat * 4 + rt.toNat % 4) :: BitVec.ofNat 8 path.length
            :: (path ++ payload)) }

/-- R147: PDECODE inverts PENCODE but for the documented exception, a packet with a non-zero version. -/
def Obligations.PencodeRoundTrip : Prop :=
  (∀ (rt : BitVec 2) (pt : BitVec 4) (path payload : Bytes), path.length ≤ 255 →
    pdecode (pencode (rt.setWidth 8) (pt.setWidth 8) path payload) = .ok {
      header := BitVec.ofNat 8 (pt.toNat * 4 + rt.toNat)
      routeType := rt
      payloadType := pt
      payloadVersion := 0
      hasTransport := false
      transportCodes := none
      path := path
      payload := payload })
  ∧ (∀ (body : Bytes) (p : Packet), pdecode body = .ok p → p.payloadVersion ≠ 0 →
    ∃ q, pdecode (pencode (p.routeType.setWidth 8) (p.payloadType.setWidth 8) p.path p.payload) = .ok q
      ∧ q ≠ p ∧ q.payloadVersion = 0 ∧ q.transportCodes = none ∧ q.path = p.path ∧ q.payload = p.payload)

/-- R146: PENCODEX completes when the transport codes go with bit 1 of `hi`, is refused with nothing but the result
registers changed when they do not, and equals PENCODE at its defaults. -/
def Obligations.PencodexBuildsBody : Prop :=
  (∀ (s : State) (rt pt hi : Byte) (path payload : Bytes) (c0 c1 : Half),
    pt.toNat ≤ 15 → path.length ≤ 255 → okBytes s.params path = true → okBytes s.params payload = true →
    (hi.toNat < 2 →
      exec (.pencodex rt pt hi none path payload) s = .next { s with
        status := .ok
        err := 0x00
        res := .bytes (BitVec.ofNat 8 (hi.toNat * 64 + pt.toNat * 4 + rt.toNat % 4) :: BitVec.ofNat 8 path.length
          :: (path ++ payload)) })
    ∧ (2 ≤ hi.toNat → hi.toNat ≤ 3 →
      exec (.pencodex rt pt hi (some (c0, c1)) path payload) s = .next { s with
        status := .ok
        err := 0x00
        res := .bytes (BitVec.ofNat 8 (hi.toNat * 64 + pt.toNat * 4 + rt.toNat % 4)
          :: BitVec.ofNat 8 (c0.toNat % 256) :: BitVec.ofNat 8 (c0.toNat / 256)
          :: BitVec.ofNat 8 (c1.toNat % 256) :: BitVec.ofNat 8 (c1.toNat / 256)
          :: BitVec.ofNat 8 path.length :: (path ++ payload)) })
    ∧ exec (.pencodex rt pt 0 none path payload) s = exec (.pencode rt pt path payload) s)
  ∧ (∀ (s : State) (rt pt hi : Byte) (tc : Option (Half × Half)) (path payload : Bytes),
    hi.toNat ≤ 3 → tc.isSome ≠ decide (2 ≤ hi.toNat) →
    ∃ t, exec (.pencodex rt pt hi tc path payload) s = .next t
      ∧ t.status = .refused ∧ t.err = 0xF4 ∧ t.phase = s.phase ∧ sameContext s t)

/-- R148: PENCODEX inverts PDECODE exactly, and PDECODE inverts PENCODEX on every operand it accepts. -/
def Obligations.PencodexExactRoundTrip : Prop :=
  (∀ (body : Bytes) (p : Packet), pdecode body = .ok p →
    pencodex (p.routeType.setWidth 8) (p.payloadType.setWidth 8) (p.payloadVersion.setWidth 8) p.transportCodes
      p.path p.payload = body)
  ∧ (∀ (rt pt hi : Byte) (tc : Option (Half × Half)) (path payload : Bytes),
    pt.toNat ≤ 15 → hi.toNat ≤ 3 → tc.isSome = decide (2 ≤ hi.toNat) → path.length ≤ 255 →
    ∃ p, pdecode (pencodex rt pt hi tc path payload) = .ok p
      ∧ p.routeType.toNat = rt.toNat % 4 ∧ p.payloadType.toNat = pt.toNat ∧ p.payloadVersion.toNat = hi.toNat
      ∧ p.hasTransport = decide (2 ≤ hi.toNat) ∧ p.transportCodes = tc ∧ p.path = path ∧ p.payload = payload)

/-! ### The composites -/

/-- R253: TXFRAME completes with the frame of PENCODE's body, `6 + len(path) + len(payload)` bytes long, and RXFRAME's
stages take that frame apart again. -/
def Obligations.TxframeBuildsFrame : Prop :=
  ∀ (s : State) (rt pt : Byte) (path payload : Bytes),
    pt.toNat ≤ 15 → path.length ≤ 255 → okBytes s.params path = true → okBytes s.params payload = true →
    ∃ (frame body : Bytes) (p : Packet),
      exec (.txframe rt pt path payload) s = .next { s with status := .ok, err := 0x00, res := .bytes frame }
        ∧ body = BitVec.ofNat 8 (pt.toNat * 4 + rt.toNat % 4) :: BitVec.ofNat 8 path.length :: (path ++ payload)
        ∧ frame = [0xC0, 0x3E, BitVec.ofNat 8 (closedSum1 body), BitVec.ofNat 8 (closedSum2 body)] ++ body
        ∧ frame.length = 6 + path.length + payload.length
        ∧ unwrap frame = .ok body ∧ pdecode body = .ok p
        ∧ p.routeType.toNat = rt.toNat % 4 ∧ p.payloadType.toNat = pt.toNat ∧ p.payloadVersion = 0
        ∧ p.transportCodes = none ∧ p.path = path ∧ p.payload = payload

/-- R252: RXFRAME completes on every frame that carries a well-formed packet, whatever becomes of its payload: the
result is the packet and the payload's own outcome, and the phase becomes `RUN`. -/
def Obligations.RxframeDelivers : Prop :=
  ∀ (s : State) (raw body : Bytes) (p : Packet), okBytes s.params raw = true →
    unwrap raw = .ok body → pdecode body = .ok p →
    ∃ po, exec (.rxframe raw) s = .next { s with
        phase := .run, status := .ok, err := 0x00, res := .received p po }
      ∧ (∀ s', s'.params = { s.params with maxLen := none } → s'.secret? = s.secret? →
          ∃ t, exec (.pldecode (p.payloadType.setWidth 8) p.payload) s' = .next t
            ∧ t.lastOutcome = some (payloadEnd po))

/-- R252 (a), R279: RXFRAME is the sequence UNWRAP, PDECODE, PLDECODE with the values passed along: an error of one of
the first two stages is RXFRAME's own, and the outcome of the third is delivered inside RXFRAME's result. -/
def Obligations.RxframeIsItsParts : Prop :=
  ∀ (s : State) (raw : Bytes), s.params.maxLen = none →
    ∃ t u, exec (.rxframe raw) s = .next t ∧ exec (.unwrap raw) s = .next u
      ∧ ((∃ e, u.lastOutcome = some (.err e) ∧ t.lastOutcome = some (.err e))
        ∨ (∃ body v, u.lastOutcome = some (.ok (.bytes body)) ∧ exec (.pdecode body) u = .next v
          ∧ ((∃ e, v.lastOutcome = some (.err e) ∧ t.lastOutcome = some (.err e))
            ∨ (∃ p w, v.lastOutcome = some (.ok (.packet p))
              ∧ exec (.pldecode (p.payloadType.setWidth 8) p.payload) v = .next w
              ∧ ((∃ d, w.lastOutcome = some (.ok (.decoded d))
                    ∧ t.lastOutcome = some (.ok (.received p (.decoded d))))
                ∨ (w.lastOutcome = some (.err (.packet .truncated))
                    ∧ t.lastOutcome = some (.ok (.received p .malformedTruncated)))
                ∨ (∃ r c, w.lastOutcome = some (.undecryptable r c)
                    ∧ t.lastOutcome = some (.ok (.received p (.undecryptable r c)))))))))

/-! ### The authenticated cipher and its primitives -/

/-- R190 to R194, R199: MACDEC completes on a buffer whose tag is right and whose ciphertext is whole blocks; otherwise
it raises the first error that applies, and with no secret it is refused, the phase being `RUN` all the same. -/
def Obligations.MacdecSequence : Prop :=
  ∀ (s : State),
    (∀ tag0 tag1 : Byte, ∀ ct : Bytes, okBytes s.params (tag0 :: tag1 :: ct) = true → s.keyValid = true → ct ≠ [] →
      (tag2 s.key.toList ct = [tag0, tag1] → ct.length % 16 = 0 →
        exec (.macdec (tag0 :: tag1 :: ct)) s = .next { s with
          phase := .run, status := .ok, err := 0x00, res := .bytes (unpad (ecbDec (s.key.toList.take 16) ct)) })
      ∧ (tag2 s.key.toList ct ≠ [tag0, tag1] →
        ∃ t, exec (.macdec (tag0 :: tag1 :: ct)) s = .next t
          ∧ t.status = .err ∧ t.err = 0x32 ∧ t.phase = .run ∧ sameContext s t)
      ∧ (tag2 s.key.toList ct = [tag0, tag1] → ct.length % 16 ≠ 0 →
        ∃ t, exec (.macdec (tag0 :: tag1 :: ct)) s = .next t
          ∧ t.status = .err ∧ t.err = 0x33 ∧ t.phase = .run ∧ sameContext s t))
    ∧ (∀ buffer : Bytes, okBytes s.params buffer = true → s.keyValid = true → buffer.length ≤ 2 →
      ∃ t, exec (.macdec buffer) s = .next t
        ∧ t.status = .err ∧ t.err = 0x31 ∧ t.phase = .run ∧ sameContext s t)
    ∧ (∀ buffer : Bytes, okBytes s.params buffer = true → s.keyValid = false →
      ∃ t, exec (.macdec buffer) s = .next t
        ∧ t.status = .refused ∧ t.err = 0xF3 ∧ t.phase = .run ∧ sameContext s t)

/-- R200: a sealed buffer decrypts to the unpadded plaintext, and to the plaintext itself when it ends neither in a zero
byte nor in valid padding. -/
def Obligations.SealedBufferDecrypts : Prop :=
  ∀ secret pt : Bytes, secret.length = 32 → pt ≠ [] → pt.length % 16 = 0 →
    macDec secret (sealBuffer secret pt) = .ok (unpad pt)
      ∧ ((∀ a, pt ≠ a ++ [0x00]) →
          (∀ (a : Bytes) (n : Nat), 1 ≤ n → n ≤ 16 → pt ≠ a ++ List.replicate n (BitVec.ofNat 8 n)) →
          macDec secret (sealBuffer secret pt) = .ok pt)

/-- R178: the inverse cipher inverts the forward cipher, for every key and block. -/
def Obligations.AesDecryptInvertsEncrypt : Prop :=
  ∀ key block : Bytes, key.length = 16 → block.length = 16 → aes128Dec key (aes128Enc key block) = block

/-- R177: a buffer of whole blocks is decrypted block by block with one key; no block depends on another. -/
def Obligations.EcbBlocksIndependent : Prop :=
  ∀ (key : Bytes) (blocks : List Bytes), (∀ b ∈ blocks, b.length = 16) →
    ecbDec key blocks.flatten = (blocks.map (aes128Dec key)).flatten

/-- R160: the padded message is the message, `0x80`, the least number of zero bytes that makes the length a multiple of
64, and the bit length in eight big-endian bytes. That the length is taken modulo 2^64 for messages of 2^61 bytes or more
is the model's reading, where R160 is silent (log entry 18, DEDUCED). -/
def Obligations.ShaPaddingShape : Prop :=
  ∀ m : Bytes, ∃ (k : Nat) (len : Bytes),
    shaPad m = m ++ [0x80] ++ List.replicate k 0x00 ++ len
      ∧ len.length = 8 ∧ len.foldl (fun n (b : Byte) => n * 256 + b.toNat) 0 = 8 * m.length % 2 ^ 64
      ∧ (shaPad m).length % 64 = 0 ∧ ∀ j, (m.length + 1 + j + 8) % 64 = 0 → k ≤ j

/-- R196: valid padding is stripped and nothing after it; any other tail takes the lenient fallback. -/
def Obligations.UnpadTwoBranches : Prop :=
  ∀ plain : Bytes, 16 ≤ plain.length →
    (∀ (a : Bytes) (n : Nat), 1 ≤ n → n ≤ 16 → plain = a ++ List.replicate n (BitVec.ofNat 8 n) → unpad plain = a)
    ∧ ((∀ (a : Bytes) (n : Nat), 1 ≤ n → n ≤ 16 → plain ≠ a ++ List.replicate n (BitVec.ofNat 8 n)) →
        unpad plain = strip0 plain)

/-- R197: `Strip0(b)` is `b[0:m]` for the least `m` from which on every byte is zero. -/
def Obligations.Strip0RemovesTrailingZeros : Prop :=
  ∀ b : Bytes, ∃ m, m ≤ b.length ∧ strip0 b = b.take m
    ∧ (∀ i, m ≤ i → i < b.length → b.getD i 1 = 0x00)
    ∧ (∀ m', (∀ i, m' ≤ i → i < b.length → b.getD i 1 = 0x00) → m ≤ m')

/-! ### Text and degrees -/

/-- R219: the encoding of any text decodes to the text, whatever follows it. -/
def Obligations.Utf8EncodedTextDecodes : Prop :=
  ∀ (t : Text) (rest : Bytes), utf8Lossy (utf8EncodeText t ++ rest) = t ++ utf8Lossy rest

/-- R219: where no row of the table matches, the first byte produces nothing and the scan goes on with the byte after it,
whatever follows. So `C0`, `C1`, `F5` to `FF` and stray continuation bytes produce nothing, and so do an overlong form, a
surrogate, a code point above `10FFFF` and a sequence that the end of the string cuts short. -/
def Obligations.Utf8DropsInvalidBytes : Prop :=
  (∀ (b : Byte) (t : Bytes), (∀ row ∈ utf8Rows, utf8RowMatches row (b :: t) = false) → utf8Lossy (b :: t) = utf8Lossy t)
  ∧ (∀ (b : Byte) (t : Bytes), (0x80 ≤ b.toNat ∧ b.toNat ≤ 0xC1) ∨ 0xF5 ≤ b.toNat → utf8Lossy (b :: t) = utf8Lossy t)
  ∧ (∀ b2 b3 : Byte, 0x80 ≤ b2.toNat → b2.toNat ≤ 0x9F → isCont b3 = true → utf8Lossy [0xE0, b2, b3] = [])
  ∧ (∀ b2 b3 : Byte, 0xA0 ≤ b2.toNat → b2.toNat ≤ 0xBF → isCont b3 = true → utf8Lossy [0xED, b2, b3] = [])
  ∧ (∀ b2 b3 b4 : Byte, 0x80 ≤ b2.toNat → b2.toNat ≤ 0x8F → isCont b3 = true → isCont b4 = true →
      utf8Lossy [0xF0, b2, b3, b4] = [])
  ∧ (∀ b2 b3 b4 : Byte, 0x90 ≤ b2.toNat → b2.toNat ≤ 0xBF → isCont b3 = true → isCont b4 = true →
      utf8Lossy [0xF4, b2, b3, b4] = [])
  ∧ (∀ (c : Char) (n : Nat), n < (utf8EncodeChar c).length → utf8Lossy ((utf8EncodeChar c).take n) = [])

/-- R232: `lat` is the binary64 nearest to `lat_raw / 10^6`, ties to even, and always finite. -/
def Obligations.DegreesAreNearestBinary64 : Prop :=
  ∀ raw : Int, -2 ^ 31 ≤ raw → raw < 2 ^ 31 →
    f64Finite (divMillion raw) = true
      ∧ ∀ b : F64, f64Finite b = true →
          |f64Value (divMillion raw) - raw / 1000000| ≤ |f64Value b - raw / 1000000|
            ∧ (|f64Value (divMillion raw) - raw / 1000000| = |f64Value b - raw / 1000000| →
                f64Value b ≠ f64Value (divMillion raw) → (divMillion raw).getLsbD 0 = false)

/-! ### The payload decoders -/

/-- R210, R212, R213: an ADVERT payload of at least 100 bytes decodes, by its dispatch row and by PLDECODE, to a record
whose prefix is the first 100 bytes; with no `app_data` the kind is `NONE` and every optional field is absent. That the
row is an instruction of its own is the model's choice (log entry 1, DESIGN CHOICE). -/
def Obligations.AdvertDecodesPrefix : Prop :=
  ∀ (s : State) (p : Bytes), okBytes s.params p = true → 100 ≤ p.length →
    ∃ r : AdvertRecord,
      (∀ ver rt, exec (.advert ver rt p) s = .next { s with
        phase := .run, status := .ok, err := 0x00, res := .decoded (.advert r) })
      ∧ (∀ pt : Byte, pt.toNat ≤ 15 → ptypeOf s.params (pt.setWidth 4) = .advert →
        exec (.pldecode pt p) s = .next { s with
          phase := .run, status := .ok, err := 0x00, res := .decoded (.advert r) })
      ∧ r.pubKey = p.take 32 ∧ r.signature = (p.drop 36).take 64
      ∧ r.timestamp.toNat = (p.getD 32 0).toNat + 256 * (p.getD 33 0).toNat + 65536 * (p.getD 34 0).toNat
          + 16777216 * (p.getD 35 0).toNat
      ∧ (p.length = 100 → r.kind = .none ∧ r.flags = none ∧ r.latRaw = none ∧ r.lonRaw = none ∧ r.lat = none
          ∧ r.lon = none ∧ r.extra1 = none ∧ r.extra2 = none ∧ r.nameBytes = none ∧ r.name = none)

/-- R210, R212: an ADVERT payload under 100 bytes is `Packet.Truncated`, by its dispatch row and by PLDECODE. That the row
is an instruction of its own is the model's choice (log entry 1, DESIGN CHOICE). -/
def Obligations.AdvertTruncates : Prop :=
  ∀ (s : State) (code : BitVec 4) (p : Bytes) (i : Instr), decodesAs s.params .advert code p i →
    okBytes s.params p = true → p.length < 100 →
    ∃ t, exec i s = .next t ∧ t.status = .err ∧ t.err = 0x22 ∧ t.phase = .run ∧ sameContext s t

/-- R214 to R218, R220: an ADVERT with `app_data` completes with the flags byte and the optional fields. `n1`, `n2` and `n3`
are the offsets at which extra1, extra2 and the name are attempted: a field moves on the offset of those after it exactly
when its flag is set and its bytes are there. That an omitted field leaves the offset where it was is what R220 calls
"this spec's reading". The instruction is the dispatch row, which is the model's choice (log entry 1, DESIGN CHOICE);
PLDECODE gives the same record (obligation AdvertDecodesPrefix). -/
def Obligations.AdvertOptionalFields : Prop :=
  ∀ (prefix100 app : Bytes) (flags : Byte) (rest : Bytes), prefix100.length = 100 → app = flags :: rest →
    ∃ r : AdvertRecord,
      (∀ (s : State) (ver rt : BitVec 2), okBytes s.params (prefix100 ++ app) = true →
        exec (.advert ver rt (prefix100 ++ app)) s = .next { s with
          phase := .run, status := .ok, err := 0x00, res := .decoded (.advert r) })
      ∧ (let g (i : Nat) : Nat := (app.getD i 0).toNat
         let latlon : Bool := flags.getLsbD 4 && decide (9 ≤ app.length)
         let n1 := if latlon then 9 else 1
         let x1 : Bool := flags.getLsbD 5 && decide (n1 + 2 ≤ app.length)
         let n2 := if x1 then n1 + 2 else n1
         let x2 : Bool := flags.getLsbD 6 && decide (n2 + 2 ≤ app.length)
         let n3 := if x2 then n2 + 2 else n2
         let named : Bool := flags.getLsbD 7 && decide (n3 < app.length)
         let signed (n : Nat) : Int := if n < 2 ^ 31 then n else (n : Int) - 2 ^ 32
         let le4 (i : Nat) : Nat := g i + 256 * g (i + 1) + 65536 * g (i + 2) + 16777216 * g (i + 3)
         let lat := signed (le4 1)
         let lon := signed (le4 5)
         r.flags = some flags
         ∧ r.kind = (match flags.toNat % 16 with
             | 0 => .none | 1 => .chat | 2 => .repeater | 3 => .room | 4 => .sensor | k => .unknown (BitVec.ofNat 4 k))
         ∧ r.latRaw = (if latlon then some lat else none) ∧ r.lonRaw = (if latlon then some lon else none)
         ∧ r.lat = (if latlon then some (divMillion lat) else none)
         ∧ r.lon = (if latlon then some (divMillion lon) else none)
         ∧ r.extra1 = (if x1 then some (BitVec.ofNat 16 (g n1 + 256 * g (n1 + 1))) else none)
         ∧ r.extra2 = (if x2 then some (BitVec.ofNat 16 (g n2 + 256 * g (n2 + 1))) else none)
         ∧ (named = false → r.nameBytes = none ∧ r.name = none)
         ∧ (named = true → ∃ nb, r.nameBytes = some nb ∧ r.name = some (utf8Lossy nb) ∧ 0x00 ∉ nb
             ∧ (app.drop n3 = nb ∨ ∃ ignored, app.drop n3 = nb ++ 0x00 :: ignored)))

/-- R210, R221, R222: a group payload whose cipher buffer decrypts is decoded, by its dispatch row (GRP_TXT, GRP_DATA) and by
PLDECODE, with the body that the plaintext's length and sub-type give it. That the rows are instructions of their own is
the model's choice (log entry 1, DESIGN CHOICE). -/
def Obligations.GroupPayloadDecodes : Prop :=
  ∀ (s : State) (hash : Byte) (buf plain : Bytes), okBytes s.params (hash :: buf) = true → s.keyValid = true →
    macDec s.key.toList buf = .ok plain →
    ∃ body : Option GroupBody,
      (∀ ver rt, exec (.grpTxt ver rt (hash :: buf)) s = .next { s with
        phase := .run, status := .ok, err := 0x00, res := .decoded (.group .grpTxt hash plain body) })
      ∧ (∀ ver rt, exec (.grpData ver rt (hash :: buf)) s = .next { s with
        phase := .run, status := .ok, err := 0x00, res := .decoded (.group .grpData hash plain body) })
      ∧ (∀ (pt : Byte) (g : GroupType), pt.toNat ≤ 15 → ptypeOf s.params (pt.setWidth 4) = .group g →
        exec (.pldecode pt (hash :: buf)) s = .next { s with
          phase := .run, status := .ok, err := 0x00, res := .decoded (.group g hash plain body) })
      ∧ (plain.length < 5 → body = none)
      ∧ (∀ (b0 b1 b2 b3 flags : Byte) (tail : Bytes), plain = b0 :: b1 :: b2 :: b3 :: flags :: tail →
        ∃ b : GroupBody, body = some b ∧ b.flags = flags ∧ b.subType.toNat = flags.toNat / 4
          ∧ b.timestamp.toNat = b0.toNat + 256 * b1.toNat + 65536 * b2.toNat + 16777216 * b3.toNat
          ∧ (flags.toNat < 4 → b.textBytes = some tail ∧ b.text = some (utf8Lossy tail))
          ∧ (4 ≤ flags.toNat → b.textBytes = none ∧ b.text = none))

/-- R210, R224 to R227: a peer payload whose cipher buffer decrypts is decoded, by its dispatch row (TXT_MSG, REQ, RESPONSE,
PATH) and by PLDECODE, with the body that its type and the plaintext's length give it. That the rows are instructions of
their own is the model's choice (log entry 1, DESIGN CHOICE). -/
def Obligations.PeerPayloadDecodes : Prop :=
  ∀ (s : State) (h0 h1 : Byte) (buf plain : Bytes), okBytes s.params (h0 :: h1 :: buf) = true → s.keyValid = true →
    macDec s.key.toList buf = .ok plain →
    ∃ text tagged : Option PeerBody,
      (∀ ver rt, exec (.txtMsg ver rt (h0 :: h1 :: buf)) s = .next { s with
        phase := .run, status := .ok, err := 0x00, res := .decoded (.peer .txtMsg h0 h1 plain text) })
      ∧ (∀ ver rt, exec (.req ver rt (h0 :: h1 :: buf)) s = .next { s with
        phase := .run, status := .ok, err := 0x00, res := .decoded (.peer .req h0 h1 plain tagged) })
      ∧ (∀ ver rt, exec (.response ver rt (h0 :: h1 :: buf)) s = .next { s with
        phase := .run, status := .ok, err := 0x00, res := .decoded (.peer .response h0 h1 plain tagged) })
      ∧ (∀ ver rt, exec (.path ver rt (h0 :: h1 :: buf)) s = .next { s with
        phase := .run, status := .ok, err := 0x00, res := .decoded (.peer .path h0 h1 plain none) })
      ∧ (∀ (pt : Byte) (t : PeerType), pt.toNat ≤ 15 → ptypeOf s.params (pt.setWidth 4) = .peer t →
        exec (.pldecode pt (h0 :: h1 :: buf)) s = .next { s with
          phase := .run
          status := .ok
          err := 0x00
          res := .decoded (.peer t h0 h1 plain
            (match t with | .txtMsg => text | .req => tagged | .response => tagged | .path => none)) })
      ∧ (plain.length < 5 → text = none) ∧ (plain.length < 4 → tagged = none)
      ∧ (∀ (b0 b1 b2 b3 : Byte) (tail : Bytes), plain = b0 :: b1 :: b2 :: b3 :: tail →
        ∃ v : Word, v.toNat = b0.toNat + 256 * b1.toNat + 65536 * b2.toNat + 16777216 * b3.toNat
          ∧ tagged = some (.tagged v tail)
          ∧ (∀ (flags : Byte) (rest : Bytes), tail = flags :: rest →
              text = some (.text v flags (strip0 rest) (utf8Lossy (strip0 rest)))))

/-- R210, R271: the five ways a group or peer payload is undecryptable, the first that applies, with its code and its
cleartext hash bytes; and no other instruction ends so. R271 names PLDECODE alone: that the dispatch rows end so too, as
instructions of their own, is the model's choice (log entry 1, DESIGN CHOICE). -/
def Obligations.UndecryptableReasons : Prop :=
  (∀ (s : State) (t : PType) (code : BitVec 4) (p : Bytes) (i : Instr) (n : Nat),
    decodesAs s.params t code p i → hashBytes t = some n → okBytes s.params p = true →
    (s.keyValid = false →
      exec i s = .next { s with phase := .run, status := .undec, err := 0x41, res := .bytes [] })
    ∧ (s.keyValid = true → p.length < n + 2 →
      exec i s = .next { s with phase := .run, status := .undec, err := 0x42, res := .bytes [] })
    ∧ (s.keyValid = true → p.length = n + 2 →
      exec i s = .next { s with phase := .run, status := .undec, err := 0x43, res := .bytes (p.take n) })
    ∧ (s.keyValid = true → n + 2 < p.length → (p.drop n).take 2 ≠ tag2 s.key.toList (p.drop (n + 2)) →
      exec i s = .next { s with phase := .run, status := .undec, err := 0x44, res := .bytes (p.take n) })
    ∧ (s.keyValid = true → n + 2 < p.length → (p.drop n).take 2 = tag2 s.key.toList (p.drop (n + 2)) →
      (p.length - (n + 2)) % 16 ≠ 0 →
      exec i s = .next { s with phase := .run, status := .undec, err := 0x45, res := .bytes (p.take n) }))
  ∧ (∀ (i : Instr) (s u : State), exec i s = .next u → u.status = .undec →
    ∃ t code p n, decodesAs s.params t code p i ∧ hashBytes t = some n)

/-- R210, R228: an ACK payload decodes, by its dispatch row and by PLDECODE, secret or not: its first four bytes as a
little-endian number where there are four, nothing where there are fewer. That the row is an instruction of its own is the
model's choice (log entry 1, DESIGN CHOICE). -/
def Obligations.AckReportsCrc : Prop :=
  ∀ (s : State) (p : Bytes), okBytes s.params p = true →
    ∃ crc : Option Word,
      (∀ ver rt, exec (.ack ver rt p) s = .next { s with
        phase := .run, status := .ok, err := 0x00, res := .decoded (.ack crc) })
      ∧ (∀ pt : Byte, pt.toNat ≤ 15 → ptypeOf s.params (pt.setWidth 4) = .ack →
        exec (.pldecode pt p) s = .next { s with
          phase := .run, status := .ok, err := 0x00, res := .decoded (.ack crc) })
      ∧ (p.length < 4 → crc = none)
      ∧ (4 ≤ p.length → ∃ v, crc = some v ∧ v.toNat = (p.getD 0 0).toNat + 256 * (p.getD 1 0).toNat
          + 65536 * (p.getD 2 0).toNat + 16777216 * (p.getD 3 0).toNat)

/-- R210, R229, R230: a CONTROL or RAW_CUSTOM payload is returned unchanged, and a payload under a code with no type is
reported as that code, by the dispatch rows and by PLDECODE, secret or not. That the rows are instructions of their own is
the model's choice (log entry 1, DESIGN CHOICE); the codes of the rows are the family's (log entry 6, PRESUMED). -/
def Obligations.OpaqueAndUnknownPayloads : Prop :=
  ∀ (s : State) (p : Bytes), okBytes s.params p = true →
    let answers (i : Instr) (d : Decoded) : Prop :=
      exec i s = .next { s with phase := .run, status := .ok, err := 0x00, res := .decoded d }
    (∀ ver rt, answers (.control ver rt p) (.opaq .control p) ∧ answers (.rawCustom ver rt p) (.opaq .rawCustom p)
      ∧ answers (.unknown7 ver rt p) (.unknown 0x7) ∧ answers (.unknown9 ver rt p) (.unknown 0x9)
      ∧ answers (.unknownA ver rt p) (.unknown 0xA) ∧ answers (.unknownC ver rt p) (.unknown 0xC)
      ∧ answers (.unknownD ver rt p) (.unknown 0xD) ∧ answers (.unknownE ver rt p) (.unknown 0xE))
    ∧ (∀ (pt : Byte) (o : OpaqueType), pt.toNat ≤ 15 → ptypeOf s.params (pt.setWidth 4) = .opaq o →
        answers (.pldecode pt p) (.opaq o p))
    ∧ (∀ pt : Byte, pt.toNat ≤ 15 → ptypeOf s.params (pt.setWidth 4) = .unknown →
        answers (.pldecode pt p) (.unknown (BitVec.ofNat 4 pt.toNat)))

/-- R91, R210: under the default table a payload put under a header byte is decoded as PLDECODE decodes it under the
code in bits 5:2, whatever the header's other bits. That a payload under a header byte is an instruction is the model's
choice (log entry 1, DESIGN CHOICE); the codes of the default table are the family's (log entry 6, PRESUMED). -/
def Obligations.HeaderDispatchIsPldecode : Prop :=
  ∀ (s : State) (h : Byte) (p : Bytes), s.params.ptypeTable = Params.defaultTable →
    exec (decodeHeader h p) s = exec (.pldecode (BitVec.ofNat 8 (h.toNat / 4 % 16)) p) s

/-! ### The system operations -/

/-- R251: the byte `0x00` is NOP, which has no operands; NOP completes in every state and writes the result registers
only. -/
def Obligations.NopCompletes : Prop :=
  (∀ rest : Bytes, decodeCommand (0x00 :: rest) = .ok (.nop, rest))
    ∧ ∀ s : State, exec .nop s = .next { s with status := .ok, err := 0x00, res := .nothing }

/-- R250: SETKEY in `CONFIG` stores the operand, padded with zeros or cut to 32 bytes, and makes the secret valid; in
`RUN` it is refused and changes nothing but the result registers. -/
def Obligations.SetkeyInstallsSecret : Prop :=
  ∀ (s : State) (k : Bytes), okBytes s.params k = true →
    (s.phase = .config →
      ∃ key : Vector Byte 32,
        exec (.setkey k) s = .next { s with
          key := key, keyValid := true, status := .ok, err := 0x00, res := .nothing }
        ∧ ∀ (i : Nat) (h : i < 32), key[i] = if i < k.length then k.getD i 0xFF else 0x00)
    ∧ (s.phase = .run →
      ∃ t, exec (.setkey k) s = .next t
        ∧ t.status = .refused ∧ t.err = 0xF2 ∧ t.phase = .run ∧ sameContext s t)

/-! ### Acceptance, outcomes and the phase -/

/-- R256: every instruction with a malformed operand, and no other, ends in `Refused(BadOperand)`, and then nothing but
the result registers is changed. The model's own readings in it: a path over 255 is turned away (log entry 9, DESIGN
CHOICE), a `MAXLEN` bounds a path and a dispatch row's payload as well (log entry 10, DEDUCED), and the dispatch rows are
instructions (log entry 1, DESIGN CHOICE). -/
def Obligations.MalformedOperandsRefused : Prop :=
  ∀ (i : Instr) (s : State), ∃ u, exec i s = .next u
    ∧ (malformed s.params i ↔ (u.status = .refused ∧ u.err = 0xF4))
    ∧ (malformed s.params i → u.phase = s.phase ∧ sameContext s u)

/-- R273: the outcomes in which each command can end. R273 has no row for the sixteen dispatch rows: theirs are the model's,
those of PLDECODE for the row's own type (log entry 1, DESIGN CHOICE), and a `MAXLEN` bounds their payloads and every path
(log entry 10, DEDUCED). -/
def Obligations.OutcomeTable : Prop :=
  ∀ (i : Instr) (s u : State), exec i s = .next u →
    (u.status = .ok ∧ u.err = 0x00)
      ∨ (u.status = .err ∧ u.err ∈ errCells i
          ∧ ∀ pt p, i = .pldecode pt p → ptypeOf s.params (pt.setWidth 4) = .advert)
      ∨ (u.status = .undec ∧ u.err ∈ undecCells i
          ∧ ∀ pt p, i = .pldecode pt p → hashBytes (ptypeOf s.params (pt.setWidth 4)) ≠ none)
      ∨ (u.status = .refused ∧ refuseCell s.params i u.err)

/-- R275: what every instruction that ends in an error leaves: the secret as it was, the phase `RUN`, and the code of one
of the eight errors in `ERR`. That the ADVERT dispatch row is such an instruction is the model's choice (log entry 1,
DESIGN CHOICE). -/
def Obligations.ErrorEntry : Prop :=
  ∀ (i : Instr) (s u : State), exec i s = .next u → u.status = .err →
    u.phase = .run ∧ sameContext s u ∧ ∃ e, u.lastOutcome = some (.err e) ∧ u.err = errCode e

/-- R22: an instruction leaves the phase `RUN` exactly when it was `RUN`, or the instruction is a decode operation and its
operands were accepted; SETKEY succeeds in `CONFIG` only. That a dispatch row is a decode operation is the model's choice
(log entry 1, DESIGN CHOICE), as are the malformed operands of log entries 9 and 10. -/
def Obligations.PhaseRule : Prop :=
  ∀ (i : Instr) (s u : State), exec i s = .next u →
    (u.phase = .run ↔ (s.phase = .run ∨ (isDecodeOp i = true ∧ ¬malformed s.params i)))
      ∧ (isSetkey i = true → u.status = .ok → s.phase = .config)

/-- R32: the outcome of an instruction, and the secret and phase it leaves, are a function of the secret, the phase and
the parameters: the earlier contents of the result registers play no part. -/
def Obligations.OutcomeIsAFunctionOfContext : Prop :=
  ∀ (i : Instr) (s s' : State), s'.params = s.params → s'.keyValid = s.keyValid → s'.key = s.key →
    s'.phase = s.phase →
    ∃ u u', exec i s = .next u ∧ exec i s' = .next u' ∧ u'.lastOutcome = u.lastOutcome
      ∧ u'.keyValid = u.keyValid ∧ u'.key = u.key ∧ u'.phase = u.phase

/-- R57: in phase `RUN` the outcome of an instruction does not depend on which instruction was performed before it. -/
def Obligations.OrderDoesNotMatterInRun : Prop :=
  ∀ (i j : Instr) (s : State), s.phase = .run →
    ∃ u v w, exec i s = .next u ∧ exec j u = .next v ∧ exec j s = .next w ∧ v.lastOutcome = w.lastOutcome

/-- R21: while no secret is configured no instruction reads `KEY`: with other key bytes the block does the same, and
leaves either those bytes or, where it writes the key, the same ones. -/
def Obligations.KeyUnreadWhileInvalid : Prop :=
  ∀ (s : State) (k : Vector Byte 32), s.keyValid = false →
    ∃ t, step s = .next t
      ∧ (step { s with key := k } = .next t ∨ step { s with key := k } = .next { t with key := k })

/-! ### Steps -/

/-- A step runs the decoded instruction: a command at the head of a stream that can be delimited, with its bytes taken from
the stream, also one whose `u4` or `u2` is out of range, after whose refusal the stream goes on (log entry 17, DEDUCED); a
command at the command interface; a payload under its header byte (log entry 1, DESIGN CHOICE). The queue of what the host
has issued is the model's own (log entry 2, DESIGN CHOICE). -/
def Obligations.StepRunsDecoded : Prop :=
  (∀ (s : State) (b rest : Bytes) (i : Instr) (q : List HostItem),
    s.inbox = .stream b :: q → decodeCommand b = .ok (i, rest) →
    step s = exec i { s with inbox := if rest = [] then q else .stream rest :: q })
  ∧ (∀ (s : State) (i : Instr) (q : List HostItem), s.inbox = .command i :: q →
    step s = exec i { s with inbox := q })
  ∧ (∀ (s : State) (h : Byte) (p : Bytes) (q : List HostItem), s.inbox = .payload h p :: q →
    step s = exec (decodeHeader h p) { s with inbox := q })

/-- R311: there is no state from which the block stops: every step answers a next state, with the parameters as they
were. With nothing issued the block waits (R302); that a step then leaves the state as it is, is the model's choice (log
entry 2, DESIGN CHOICE). -/
def Obligations.EveryStepCompletes : Prop :=
  (∀ s : State, ∃ t, step s = .next t ∧ t.params = s.params) ∧ (∀ s : State, s.inbox = [] → step s = .next s)

/-- R22, R23, R270 to R272, R254: every step keeps the registers in agreement with one another. The dispatch rows keep it as
instructions of the model's choice (log entry 1, DESIGN CHOICE). -/
def Obligations.LegalKeptByStep : Prop :=
  ∀ s t : State, s.legal = true → step s = .next t → t.legal = true

/-- R34: the registers agree with one another after reset, with the values that the spec gives; the values that the model
names (log entries 4 and 5) play no part in it. -/
def Obligations.LegalAfterReset : Prop := State.reset.legal = true

/-- R300, R301: the machine after reset has no secret, phase `CONFIG`, status `IDLE` and `ERR = 0`, and the reset event
brings every state there. That what the host issued after the event is still to come, and that the parameters stay, is the
model's choice (log entry 11, DESIGN CHOICE). -/
def Obligations.ResetEventRestores : Prop :=
  (State.reset.keyValid = false ∧ State.reset.phase = .config ∧ State.reset.status = .idle ∧ State.reset.err = 0x00)
    ∧ ∀ (s : State) (q : List HostItem), s.inbox = .reset :: q →
        ∃ t, step s = .next t ∧ t.keyValid = false ∧ t.phase = .config ∧ t.status = .idle ∧ t.err = 0x00
          ∧ t.inbox = q ∧ t.params = s.params

/-- R280, R300: in phase `RUN` a step that is not the reset event leaves the secret and the phase as they were; the reset
event is the only way back to `CONFIG` and the only way to remove a secret. -/
def Obligations.RunIsLeftByResetOnly : Prop :=
  ∀ s t : State, step s = .next t → (∀ q, s.inbox ≠ .reset :: q) →
    (s.phase = .run → t.phase = .run ∧ t.keyValid = s.keyValid ∧ t.key = s.key)
      ∧ (s.keyValid = true → t.keyValid = true)

/-- R255: an unassigned opcode at the head of a stream is `Refused(UnknownOpcode)`: nothing but the result registers is
changed, and the stream ends there. The queue that holds the stream is the model's own (log entry 2, DESIGN CHOICE), and
that the block goes on with the host's next item is its reading, where R311 only ends the run (log entry 17, DEDUCED). -/
def Obligations.UnassignedOpcodeRefused : Prop :=
  ∀ (s : State) (op : Byte) (t : Bytes) (q : List HostItem),
    ¬(op.toNat ≤ 0x0A ∨ op.toNat = 0x10) → s.inbox = .stream (op :: t) :: q →
    ∃ u, step s = .next u ∧ u.status = .refused ∧ u.err = 0xF1 ∧ u.phase = s.phase
      ∧ sameContext { s with inbox := q } u

/-! ### Encodings -/

/-- R94: the bytes of a well-formed command decode to the command, with every operand at every value, and leave what
follows them. -/
def Obligations.DecodeEncodedCommand : Prop :=
  ∀ (i : Instr) (rest : Bytes), i.wf = true → i.isCommand = true →
    decodeCommand (encode i ++ rest) = .ok (i, rest)

/-- R94: what decodes to a command is that command's own bytes: no bit of a command is dropped. -/
def Obligations.DecodedCommandReencodes : Prop :=
  ∀ (b rest : Bytes) (i : Instr), decodeCommand b = .ok (i, rest) → b = encode i ++ rest ∧ i.isCommand = true

/-- R82, R91: a dispatch row's header byte and payload decode to the row with its free fields, and every header byte is
the encoding of what it decodes to. That a row is an instruction of its own is the model's choice (log entry 1, DESIGN
CHOICE). -/
def Obligations.DecodeEncodedHeader : Prop :=
  (∀ i : Instr, i.isCommand = false → ∃ h p, encode i = h :: p ∧ decodeHeader h p = i)
  ∧ (∀ (h : Byte) (p : Bytes), encode (decodeHeader h p) = h :: p ∧ (decodeHeader h p).isCommand = false)

/-- R94, R256: a stream that ends anywhere inside a well-formed command holds no command: it is rejected as cut short,
which the block records as `Refused(BadOperand)`, and the stream ends. That the block goes on with the host's next item is
the model's reading (log entry 17, DEDUCED). -/
def Obligations.CutShortCommandRefused : Prop :=
  ∀ (i : Instr) (n : Nat), i.wf = true → i.isCommand = true → n < (encode i).length →
    decodeCommand ((encode i).take n) = .error .cutShort
      ∧ ∀ (s : State) (q : List HostItem), 0 < n → s.inbox = .stream ((encode i).take n) :: q →
          ∃ u, step s = .next u ∧ u.status = .refused ∧ u.err = 0xF4 ∧ u.phase = s.phase
            ∧ sameContext { s with inbox := q } u

/-- R93, R94, R91: words written out from the formats decode to the instructions they stand for. That a table word whose
first byte is an assigned opcode is a command, and that a dispatch row is an instruction of its own, are the model's
choices (log entries 7 and 1, DESIGN CHOICE); that the payload type code 2 is TXT_MSG is the family's (log entry 6,
PRESUMED). -/
def Obligations.WrittenWordsDecode : Prop :=
  decodeCommand [0x01, 0x04, 0x00, 0x3D, 0x00, 0x41, 0x42] = .ok (.cksum [0x3D, 0x00, 0x41, 0x42], [])
    ∧ decodeCommand [0x0A, 0x01, 0x0F, 0x00, 0x02, 0x00, 0x41, 0x42, 0x00] = .ok (.txframe 1 0xF [] [0x41, 0x42], [0x00])
    ∧ decodeCommand [0x06, 0x02, 0x02, 0x02, 0x34, 0x12, 0xCD, 0xAB, 0x02, 0xAA, 0xBB, 0x01, 0x00, 0x01]
        = .ok (.pencodex 2 2 2 (some (0x1234, 0xABCD)) [0xAA, 0xBB] [0x01], [])
    ∧ decodeHeader 0x8A [0x41] = .txtMsg 2 2 [0x41]
    ∧ decodeTableWord 8 0x10 = some (.setkey []) ∧ decodeTableWord 8 0x3C = some (.rawCustom 0 0 [])

/-! ### Several instances -/

/-- R281: in every interleaving of the steps of several instances each instance ends where its own steps alone take it. -/
def Obligations.InstancesDoNotInterfere : Prop :=
  ∀ (ks : List Nat) (before : Cluster), (∀ k ∈ ks, k < before.length) →
    ∃ after : Cluster, Cluster.run ks before = some after ∧ after.length = before.length
      ∧ ∀ (k : Nat) (s : State), (before.drop k).head? = some s →
          ∃ t : State, (after.drop k).head? = some t ∧ Host.Core.run Sys2Proof.core (ks.count k) s = .next t
end

