-- ==== Sys2Proof/Laws/State.lean ====
section
/-! SUPPORT. One lemma for each field of the state and each update of it, all true by definition: what an update writes,
and what it leaves as it was. -/

namespace Sys2Proof.Machine

@[simp] theorem State.freshRes_params (s : State) : (s.freshRes).params = s.params := rfl
@[simp] theorem State.freshRes_keyValid (s : State) : (s.freshRes).keyValid = s.keyValid := rfl
@[simp] theorem State.freshRes_key (s : State) : (s.freshRes).key = s.key := rfl
@[simp] theorem State.freshRes_phase (s : State) : (s.freshRes).phase = s.phase := rfl
@[simp] theorem State.freshRes_status (s : State) : (s.freshRes).status = s.status := rfl
@[simp] theorem State.freshRes_err (s : State) : (s.freshRes).err = s.err := rfl
@[simp] theorem State.freshRes_res (s : State) : (s.freshRes).res = Config.freeRes s.free := rfl
@[simp] theorem State.freshRes_inbox (s : State) : (s.freshRes).inbox = s.inbox := rfl
@[simp] theorem State.freshRes_free (s : State) : (s.freshRes).free = s.free + 1 := rfl

@[simp] theorem State.complete_params (v : Res) (s : State) : (s.complete v).params = s.params := rfl
@[simp] theorem State.complete_keyValid (v : Res) (s : State) : (s.complete v).keyValid = s.keyValid := rfl
@[simp] theorem State.complete_key (v : Res) (s : State) : (s.complete v).key = s.key := rfl
@[simp] theorem State.complete_phase (v : Res) (s : State) : (s.complete v).phase = s.phase := rfl
@[simp] theorem State.complete_status (v : Res) (s : State) : (s.complete v).status = .ok := rfl
@[simp] theorem State.complete_err (v : Res) (s : State) : (s.complete v).err = 0x00 := rfl
@[simp] theorem State.complete_res (v : Res) (s : State) : (s.complete v).res = v := rfl
@[simp] theorem State.complete_inbox (v : Res) (s : State) : (s.complete v).inbox = s.inbox := rfl
@[simp] theorem State.complete_free (v : Res) (s : State) : (s.complete v).free = s.free := rfl

@[simp] theorem State.raise_params (e : Err) (s : State) : (s.raise e).params = s.params := rfl
@[simp] theorem State.raise_keyValid (e : Err) (s : State) : (s.raise e).keyValid = s.keyValid := rfl
@[simp] theorem State.raise_key (e : Err) (s : State) : (s.raise e).key = s.key := rfl
@[simp] theorem State.raise_phase (e : Err) (s : State) : (s.raise e).phase = s.phase := rfl
@[simp] theorem State.raise_status (e : Err) (s : State) : (s.raise e).status = .err := rfl
@[simp] theorem State.raise_err (e : Err) (s : State) : (s.raise e).err = errCode e := rfl
@[simp] theorem State.raise_res (e : Err) (s : State) : (s.raise e).res = Config.freeRes s.free := rfl
@[simp] theorem State.raise_inbox (e : Err) (s : State) : (s.raise e).inbox = s.inbox := rfl
@[simp] theorem State.raise_free (e : Err) (s : State) : (s.raise e).free = s.free + 1 := rfl

@[simp] theorem State.undecryptable_params (r : UndecReason) (c : Bytes) (s : State) : (s.undecryptable r c).params = s.params := rfl
@[simp] theorem State.undecryptable_keyValid (r : UndecReason) (c : Bytes) (s : State) : (s.undecryptable r c).keyValid = s.keyValid := rfl
@[simp] theorem State.undecryptable_key (r : UndecReason) (c : Bytes) (s : State) : (s.undecryptable r c).key = s.key := rfl
@[simp] theorem State.undecryptable_phase (r : UndecReason) (c : Bytes) (s : State) : (s.undecryptable r c).phase = s.phase := rfl
@[simp] theorem State.undecryptable_status (r : UndecReason) (c : Bytes) (s : State) : (s.undecryptable r c).status = .undec := rfl
@[simp] theorem State.undecryptable_err (r : UndecReason) (c : Bytes) (s : State) : (s.undecryptable r c).err = undecCode r := rfl
@[simp] theorem State.undecryptable_res (r : UndecReason) (c : Bytes) (s : State) : (s.undecryptable r c).res = .bytes c := rfl
@[simp] theorem State.undecryptable_inbox (r : UndecReason) (c : Bytes) (s : State) : (s.undecryptable r c).inbox = s.inbox := rfl
@[simp] theorem State.undecryptable_free (r : UndecReason) (c : Bytes) (s : State) : (s.undecryptable r c).free = s.free := rfl

@[simp] theorem State.refuse_params (r : RefuseReason) (s : State) : (s.refuse r).params = s.params := rfl
@[simp] theorem State.refuse_keyValid (r : RefuseReason) (s : State) : (s.refuse r).keyValid = s.keyValid := rfl
@[simp] theorem State.refuse_key (r : RefuseReason) (s : State) : (s.refuse r).key = s.key := rfl
@[simp] theorem State.refuse_phase (r : RefuseReason) (s : State) : (s.refuse r).phase = s.phase := rfl
@[simp] theorem State.refuse_status (r : RefuseReason) (s : State) : (s.refuse r).status = .refused := rfl
@[simp] theorem State.refuse_err (r : RefuseReason) (s : State) : (s.refuse r).err = refuseCode r := rfl
@[simp] theorem State.refuse_res (r : RefuseReason) (s : State) : (s.refuse r).res = Config.freeRes s.free := rfl
@[simp] theorem State.refuse_inbox (r : RefuseReason) (s : State) : (s.refuse r).inbox = s.inbox := rfl
@[simp] theorem State.refuse_free (r : RefuseReason) (s : State) : (s.refuse r).free = s.free + 1 := rfl

@[simp] theorem State.enterRun_params (s : State) : (s.enterRun).params = s.params := rfl
@[simp] theorem State.enterRun_keyValid (s : State) : (s.enterRun).keyValid = s.keyValid := rfl
@[simp] theorem State.enterRun_key (s : State) : (s.enterRun).key = s.key := rfl
@[simp] theorem State.enterRun_phase (s : State) : (s.enterRun).phase = .run := rfl
@[simp] theorem State.enterRun_status (s : State) : (s.enterRun).status = s.status := rfl
@[simp] theorem State.enterRun_err (s : State) : (s.enterRun).err = s.err := rfl
@[simp] theorem State.enterRun_res (s : State) : (s.enterRun).res = s.res := rfl
@[simp] theorem State.enterRun_inbox (s : State) : (s.enterRun).inbox = s.inbox := rfl
@[simp] theorem State.enterRun_free (s : State) : (s.enterRun).free = s.free := rfl

@[simp] theorem State.installKey_params (k : Bytes) (s : State) : (s.installKey k).params = s.params := rfl
@[simp] theorem State.installKey_keyValid (k : Bytes) (s : State) : (s.installKey k).keyValid = true := rfl
@[simp] theorem State.installKey_key (k : Bytes) (s : State) : (s.installKey k).key = padKey k := rfl
@[simp] theorem State.installKey_phase (k : Bytes) (s : State) : (s.installKey k).phase = s.phase := rfl
@[simp] theorem State.installKey_status (k : Bytes) (s : State) : (s.installKey k).status = s.status := rfl
@[simp] theorem State.installKey_err (k : Bytes) (s : State) : (s.installKey k).err = s.err := rfl
@[simp] theorem State.installKey_res (k : Bytes) (s : State) : (s.installKey k).res = s.res := rfl
@[simp] theorem State.installKey_inbox (k : Bytes) (s : State) : (s.installKey k).inbox = s.inbox := rfl
@[simp] theorem State.installKey_free (k : Bytes) (s : State) : (s.installKey k).free = s.free := rfl

@[simp] theorem State.applyReset_params (s : State) : (s.applyReset).params = s.params := rfl
@[simp] theorem State.applyReset_keyValid (s : State) : (s.applyReset).keyValid = false := rfl
@[simp] theorem State.applyReset_key (s : State) : (s.applyReset).key = resetKey := rfl
@[simp] theorem State.applyReset_phase (s : State) : (s.applyReset).phase = .config := rfl
@[simp] theorem State.applyReset_status (s : State) : (s.applyReset).status = .idle := rfl
@[simp] theorem State.applyReset_err (s : State) : (s.applyReset).err = 0x00 := rfl
@[simp] theorem State.applyReset_res (s : State) : (s.applyReset).res = .nothing := rfl
@[simp] theorem State.applyReset_inbox (s : State) : (s.applyReset).inbox = s.inbox := rfl
@[simp] theorem State.applyReset_free (s : State) : (s.applyReset).free = s.free := rfl

@[simp] theorem State.withInbox_params (s : State) (q : List HostItem) : (s.withInbox q).params = s.params := rfl
@[simp] theorem State.withInbox_keyValid (s : State) (q : List HostItem) : (s.withInbox q).keyValid = s.keyValid := rfl
@[simp] theorem State.withInbox_key (s : State) (q : List HostItem) : (s.withInbox q).key = s.key := rfl
@[simp] theorem State.withInbox_phase (s : State) (q : List HostItem) : (s.withInbox q).phase = s.phase := rfl
@[simp] theorem State.withInbox_status (s : State) (q : List HostItem) : (s.withInbox q).status = s.status := rfl
@[simp] theorem State.withInbox_err (s : State) (q : List HostItem) : (s.withInbox q).err = s.err := rfl
@[simp] theorem State.withInbox_res (s : State) (q : List HostItem) : (s.withInbox q).res = s.res := rfl
@[simp] theorem State.withInbox_inbox (s : State) (q : List HostItem) : (s.withInbox q).inbox = q := rfl
@[simp] theorem State.withInbox_free (s : State) (q : List HostItem) : (s.withInbox q).free = s.free := rfl

end Sys2Proof.Machine
end

