-- ==== Sys2Proof/Laws/Ops.lean ====
section
/-! SUPPORT. What each shared operation can do, said once: acceptance, the end of an operation, taking the next item, a
step. Later proofs cite these lemmas and do not unfold the operations. -/

namespace Sys2Proof.Machine

/-! ### Acceptance and the end of an operation -/

theorem State.accept_of_ok {ok : Bool} (h : ok = true) (f : State → State) (s : State) : s.accept ok f = f s := by
  simp [State.accept, h]

theorem State.accept_of_bad {ok : Bool} (h : ok = false) (f : State → State) (s : State) :
    s.accept ok f = s.refuse .badOperand := by
  simp [State.accept, h]

/-- Acceptance either turns the command away or performs it. -/
theorem State.accept_cases (ok : Bool) (f : State → State) (s : State) :
    (ok = true ∧ s.accept ok f = f s) ∨ (ok = false ∧ s.accept ok f = s.refuse .badOperand) := by
  cases ok <;> simp [State.accept]

@[simp] theorem State.finish_ok (v : Res) (s : State) : s.finish (.ok v) = s.complete v := rfl
@[simp] theorem State.finish_err (e : Err) (s : State) : s.finish (.err e) = s.raise e := rfl
@[simp] theorem State.finish_undecryptable (r : UndecReason) (c : Bytes) (s : State) :
    s.finish (.undecryptable r c) = s.undecryptable r c := rfl
@[simp] theorem State.finish_refused (r : RefuseReason) (s : State) : s.finish (.refused r) = s.refuse r := rfl

@[simp] theorem State.finish_params (o : OpOutcome) (s : State) : (s.finish o).params = s.params := by cases o <;> rfl
@[simp] theorem State.finish_keyValid (o : OpOutcome) (s : State) : (s.finish o).keyValid = s.keyValid := by
  cases o <;> rfl
@[simp] theorem State.finish_key (o : OpOutcome) (s : State) : (s.finish o).key = s.key := by cases o <;> rfl
@[simp] theorem State.finish_phase (o : OpOutcome) (s : State) : (s.finish o).phase = s.phase := by cases o <;> rfl
@[simp] theorem State.finish_inbox (o : OpOutcome) (s : State) : (s.finish o).inbox = s.inbox := by cases o <;> rfl
@[simp] theorem State.finish_status (o : OpOutcome) (s : State) : (s.finish o).status = outcomeStatus o := by
  cases o <;> rfl
@[simp] theorem State.finish_err_code (o : OpOutcome) (s : State) : (s.finish o).err = outcomeErr o := by
  cases o <;> rfl

theorem find_errCode (e : Err) : allErrs.find? (errCode · == errCode e) = some e := by
  rcases e with (_ | _ | _) | (_ | _) | (_ | _ | _) <;> decide

theorem find_undecCode (r : UndecReason) : allUndecs.find? (undecCode · == undecCode r) = some r := by
  cases r <;> decide

theorem find_refuseCode (r : RefuseReason) : allRefuses.find? (refuseCode · == refuseCode r) = some r := by
  cases r <;> decide

/-- The result registers hold the outcome that an operation ended in, whatever it was. -/
@[simp] theorem State.lastOutcome_finish (o : OpOutcome) (s : State) : (s.finish o).lastOutcome = some o := by
  cases o with
  | ok v => rfl
  | err e => simp [State.lastOutcome, find_errCode]
  | undecryptable r c => simp [State.lastOutcome, find_undecCode]
  | refused r => simp [State.lastOutcome, find_refuseCode]

@[simp] theorem State.lastOutcome_complete (v : Res) (s : State) : (s.complete v).lastOutcome = some (.ok v) := rfl

@[simp] theorem State.lastOutcome_refuse (r : RefuseReason) (s : State) :
    (s.refuse r).lastOutcome = some (.refused r) := s.lastOutcome_finish (.refused r)

/-! ### The secret -/

@[simp] theorem State.secret?_enterRun (s : State) : s.enterRun.secret? = s.secret? := rfl

theorem State.secret?_of_valid {s : State} (h : s.keyValid = true) : s.secret? = some s.key.toList := by
  simp [State.secret?, h]

theorem State.secret?_of_invalid {s : State} (h : s.keyValid = false) : s.secret? = none := by
  simp [State.secret?, h]

@[simp] theorem padKey_toList (k : Bytes) : (padKey k).toList = (List.range 32).map fun i => k.getD i 0x00 := rfl

/-- Every byte that SETKEY stores. -/
theorem padKey_getElem (k : Bytes) (i : Nat) (h : i < 32) : (padKey k)[i] = k.getD i 0x00 := by
  simp [padKey]

/-- SETKEY once accepted: refused in `RUN`, performed in `CONFIG`. -/
theorem State.setKey_cases (k : Bytes) (s : State) :
    (s.phase = .run ∧ s.setKey k = s.refuse .keyLocked)
      ∨ (s.phase = .config ∧ s.setKey k = (s.installKey k).complete .nothing) := by
  unfold State.setKey
  cases s.phase <;> simp

/-! ### Taking the next item, and a step -/

/-- What the block takes, by what the host has issued next. -/
theorem State.take_nil {s : State} (h : s.inbox = []) : s.take = .idle := by simp [State.take, h]

theorem State.take_reset {s : State} {q : List HostItem} (h : s.inbox = .reset :: q) :
    s.take = .event (s.withInbox q).applyReset := by simp [State.take, h]

theorem State.take_command {s : State} {i : Instr} {q : List HostItem} (h : s.inbox = .command i :: q) :
    s.take = .run i (s.withInbox q) := by simp [State.take, h]

theorem State.take_payload {s : State} {b : Byte} {p : Bytes} {q : List HostItem} (h : s.inbox = .payload b p :: q) :
    s.take = .run (decodeHeader b p) (s.withInbox q) := by simp [State.take, h]

theorem State.take_stream_end {s : State} {q : List HostItem} (h : s.inbox = .stream [] :: q) :
    s.take = .event (s.withInbox q) := by simp [State.take, h]

theorem State.take_stream_ok {s : State} {b rest : Bytes} {i : Instr} {q : List HostItem}
    (h : s.inbox = .stream b :: q) (hd : decodeCommand b = .ok (i, rest)) :
    s.take = .run i (s.withInbox (afterCommand rest q)) := by
  cases b with
  | nil => simp [decodeCommand] at hd
  | cons x t => simp [State.take, h, hd]

theorem State.take_stream_bad {s : State} {b : Byte} {t : Bytes} {r : CmdReject} {q : List HostItem}
    (h : s.inbox = .stream (b :: t) :: q) (hd : decodeCommand (b :: t) = .error r) :
    s.take = .rejected ((s.withInbox q).refuse (rejectReason r)) := by
  simp [State.take, h, hd]

/-- Everything a step can be: idle, the reset event, the end of a stream, a rejected command, or an operation that is
performed in the state with the item taken. -/
theorem step_cases (s : State) :
    (s.inbox = [] ∧ step s = .next s)
      ∨ (∃ q, s.inbox = .reset :: q ∧ step s = .next (s.withInbox q).applyReset)
      ∨ (∃ q, s.inbox = .stream [] :: q ∧ step s = .next (s.withInbox q))
      ∨ (∃ b t q r, s.inbox = .stream (b :: t) :: q ∧ decodeCommand (b :: t) = .error r
          ∧ step s = .next ((s.withInbox q).refuse (rejectReason r)))
      ∨ (∃ b t q i rest, s.inbox = .stream (b :: t) :: q ∧ decodeCommand (b :: t) = .ok (i, rest)
          ∧ step s = exec i (s.withInbox (afterCommand rest q)))
      ∨ (∃ i q, s.inbox = .command i :: q ∧ step s = exec i (s.withInbox q))
      ∨ (∃ h p q, s.inbox = .payload h p :: q ∧ step s = exec (decodeHeader h p) (s.withInbox q)) := by
  match hs : s.inbox with
  | [] => exact .inl ⟨rfl, by simp [step, State.take_nil hs]⟩
  | .reset :: q => exact .inr (.inl ⟨q, rfl, by simp [step, State.take_reset hs]⟩)
  | .command i :: q =>
    exact .inr (.inr (.inr (.inr (.inr (.inl ⟨i, q, rfl, by simp [step, State.take_command hs]⟩)))))
  | .payload h p :: q =>
    exact .inr (.inr (.inr (.inr (.inr (.inr ⟨h, p, q, rfl, by simp [step, State.take_payload hs]⟩)))))
  | .stream [] :: q => exact .inr (.inr (.inl ⟨q, rfl, by simp [step, State.take_stream_end hs]⟩))
  | .stream (b :: t) :: q =>
    match hd : decodeCommand (b :: t) with
    | .error r => exact .inr (.inr (.inr (.inl ⟨b, t, q, r, rfl, hd, by simp [step, State.take_stream_bad hs hd]⟩)))
    | .ok (i, rest) =>
      exact .inr (.inr (.inr (.inr (.inl ⟨b, t, q, i, rest, rfl, hd, by simp [step, State.take_stream_ok hs hd]⟩))))

/-! ### The dispatch rows -/

@[simp] theorem State.decodeAs_eq (t : PType) (code : BitVec 4) (p : Bytes) (s : State) :
    s.decodeAs t code p = s.enterRun.finish (payloadEnd (decodePayload s.secret? t code p)) := rfl

theorem State.dispatchRow_cases (t : PType) (code : BitVec 4) (p : Bytes) (s : State) :
    (okBytes s.params p = true ∧ s.dispatchRow t code p = s.decodeAs t code p)
      ∨ (okBytes s.params p = false ∧ s.dispatchRow t code p = s.refuse .badOperand) :=
  State.accept_cases _ _ _

end Sys2Proof.Machine
end

