-- ==== Sys2Proof/Laws/Functions.lean ====
section
/-! SUPPORT. What each component function of the block can do, said once: the cursor, the checksum, the envelope, the
cipher sequencer, the decoders' gates, and the readers of the command stream. -/

namespace Sys2Proof.Machine

/-! ### The cursor (R27) -/

theorem Cursor.take_eq_some {c : Cursor} {n : Nat} {r : Bytes × Cursor} :
    c.take n = some r ↔
      c.pos + n ≤ c.buf.length ∧ r = ((c.buf.drop c.pos).take n, ⟨c.buf, c.pos + n⟩) := by
  unfold Cursor.take slice
  split <;> simp_all [eq_comm]

theorem Cursor.take_eq_none {c : Cursor} {n : Nat} : c.take n = none ↔ c.buf.length < c.pos + n := by
  unfold Cursor.take
  split <;> simp_all

/-- `POS` never exceeds the length of the buffer (R27). -/
theorem Cursor.take_pos_le {c c' : Cursor} {n : Nat} {b : Bytes} (h : c.take n = some (b, c')) :
    c'.buf = c.buf ∧ c'.pos ≤ c'.buf.length ∧ b.length = n := by
  obtain ⟨hle, heq⟩ := Cursor.take_eq_some.1 h
  simp only [Prod.mk.injEq] at heq
  obtain ⟨rfl, rfl⟩ := heq
  simp
  omega

/-! ### The checksum (R120, R123) -/

@[simp] theorem Sums.run_nil (c : Sums) : c.run [] = c := rfl

@[simp] theorem Sums.run_cons (c : Sums) (b : Byte) (t : Bytes) : c.run (b :: t) = (c.step b).run t := rfl

/-- Continuing from the sums of a part (R123). -/
theorem Sums.run_append (c : Sums) (p q : Bytes) : c.run (p ++ q) = (c.run p).run q := by
  simp [Sums.run, List.foldl_append]

theorem Sums.step_lt (c : Sums) (b : Byte) : (c.step b).sum1 < 255 ∧ (c.step b).sum2 < 255 :=
  ⟨Nat.mod_lt _ (by decide), Nat.mod_lt _ (by decide)⟩

/-- Both sums lie in 0 to 254 (R24). -/
theorem Sums.run_lt {c : Sums} (h : c.sum1 < 255 ∧ c.sum2 < 255) (data : Bytes) :
    (c.run data).sum1 < 255 ∧ (c.run data).sum2 < 255 := by
  induction data generalizing c with
  | nil => exact h
  | cons b t ih => exact ih (c.step_lt b)

theorem Sums.start_lt : Sums.start.sum1 < 255 ∧ Sums.start.sum2 < 255 := by decide

/-! ### The envelope (R130) -/

/-- When UNWRAP succeeds, and with what. -/
theorem unwrap_eq_ok {raw body : Bytes} :
    unwrap raw = .ok body ↔
      4 ≤ raw.length ∧ be16 (slice raw 0 2) = magic ∧ le16 (slice raw 2 4) = fletcher16 (raw.drop 4)
        ∧ body = raw.drop 4 := by
  unfold unwrap
  split_ifs with h1 h2 h3 <;> simp_all [eq_comm]

/-- When UNWRAP raises each error: the first test that fails (R274). -/
theorem unwrap_eq_error {raw : Bytes} {e : FrameErr} :
    unwrap raw = .error e ↔
      (raw.length < 4 ∧ e = .tooShort)
        ∨ (4 ≤ raw.length ∧ be16 (slice raw 0 2) ≠ magic ∧ e = .badMagic)
        ∨ (4 ≤ raw.length ∧ be16 (slice raw 0 2) = magic
            ∧ le16 (slice raw 2 4) ≠ fletcher16 (raw.drop 4) ∧ e = .checksumMismatch) := by
  unfold unwrap
  split_ifs with h1 h2 h3 <;> simp_all [eq_comm]

/-! ### The cipher sequencer (R190) -/

/-- When MacDec succeeds, and with what. -/
theorem macDec_eq_ok {secret buffer plain : Bytes} :
    macDec secret buffer = .ok plain ↔
      2 < buffer.length ∧ slice buffer 0 2 = tag2 secret (buffer.drop 2)
        ∧ (buffer.drop 2).length % 16 = 0 ∧ plain = unpad (ecbDec (secret.take 16) (buffer.drop 2)) := by
  unfold macDec Config.blockLen Config.aesKeyLen
  split_ifs with h1 h2 h3 <;> simp_all [eq_comm]

/-- When MacDec raises each error: the first test that fails (R274). -/
theorem macDec_eq_error {secret buffer : Bytes} {e : CryptoErr} :
    macDec secret buffer = .error e ↔
      (buffer.length ≤ 2 ∧ e = .tooShort)
        ∨ (2 < buffer.length ∧ slice buffer 0 2 ≠ tag2 secret (buffer.drop 2) ∧ e = .authenticationFailed)
        ∨ (2 < buffer.length ∧ slice buffer 0 2 = tag2 secret (buffer.drop 2)
            ∧ (buffer.drop 2).length % 16 ≠ 0 ∧ e = .invalidBlockLength) := by
  unfold macDec Config.blockLen
  split_ifs with h1 h2 h3 <;> simp_all [eq_comm]

/-! ### The decoders of encrypted payloads (R221, R224) -/

/-- Everything DecodeGroup can do. -/
theorem decodeGroup_cases (secret? : Option Bytes) (t : GroupType) (p : Bytes) :
    (secret? = none ∧ decodeGroup secret? t p = .undecryptable .noSecret [])
      ∨ (∃ k, secret? = some k ∧ p.length < 3 ∧ decodeGroup secret? t p = .undecryptable .payloadTooShort [])
      ∨ (∃ k e, secret? = some k ∧ 3 ≤ p.length ∧ macDec k (p.drop 1) = .error e
          ∧ decodeGroup secret? t p = .undecryptable (undecOf e) [p.getD 0 0])
      ∨ (∃ k plain, secret? = some k ∧ 3 ≤ p.length ∧ macDec k (p.drop 1) = .ok plain
          ∧ decodeGroup secret? t p = .decoded (.group t (p.getD 0 0) plain (groupBodyOf plain))) := by
  cases secret? with
  | none => simp [decodeGroup]
  | some k =>
    by_cases h : p.length < 3
    · simp [decodeGroup, h]
    · match hm : macDec k (p.drop 1) with
      | .error e =>
        exact .inr (.inr (.inl ⟨k, e, rfl, by omega, hm, by unfold decodeGroup; simp only [if_neg h, hm]⟩))
      | .ok plain =>
        exact .inr (.inr (.inr ⟨k, plain, rfl, by omega, hm, by unfold decodeGroup; simp only [if_neg h, hm]⟩))

/-- Everything DecodePeer can do. -/
theorem decodePeer_cases (secret? : Option Bytes) (t : PeerType) (p : Bytes) :
    (secret? = none ∧ decodePeer secret? t p = .undecryptable .noSecret [])
      ∨ (∃ k, secret? = some k ∧ p.length < 4 ∧ decodePeer secret? t p = .undecryptable .payloadTooShort [])
      ∨ (∃ k e, secret? = some k ∧ 4 ≤ p.length ∧ macDec k (p.drop 2) = .error e
          ∧ decodePeer secret? t p = .undecryptable (undecOf e) [p.getD 0 0, p.getD 1 0])
      ∨ (∃ k plain, secret? = some k ∧ 4 ≤ p.length ∧ macDec k (p.drop 2) = .ok plain
          ∧ decodePeer secret? t p = .decoded (.peer t (p.getD 0 0) (p.getD 1 0) plain (peerBodyOf t plain))) := by
  cases secret? with
  | none => simp [decodePeer]
  | some k =>
    by_cases h : p.length < 4
    · simp [decodePeer, h]
    · match hm : macDec k (p.drop 2) with
      | .error e =>
        exact .inr (.inr (.inl ⟨k, e, rfl, by omega, hm, by unfold decodePeer; simp only [if_neg h, hm]⟩))
      | .ok plain =>
        exact .inr (.inr (.inr ⟨k, plain, rfl, by omega, hm, by unfold decodePeer; simp only [if_neg h, hm]⟩))

/-! ### Lossy UTF-8 (R219) -/

/-- Where no row matches, the scan drops one byte. -/
theorem utf8Lossy_of_no_match {b : Byte} {t : Bytes} (h : utf8Match (b :: t) = none) :
    utf8Lossy (b :: t) = utf8Lossy t := by
  simp [utf8Lossy, utf8Scan, h]

/-- Where a row matches, the scan emits its code point and passes the rest of the row. -/
theorem utf8Lossy_of_match {b : Byte} {t : Bytes} {cp len : Nat} (h : utf8Match (b :: t) = some (cp, len)) :
    utf8Lossy (b :: t) = Char.ofNat cp :: utf8Scan (len - 1) t := by
  simp [utf8Lossy, utf8Scan, h]

/-! ### Trailing zeros (R197) -/

@[simp] theorem strip0_nil : strip0 [] = [] := rfl

theorem strip0_append_zero (b : Bytes) : strip0 (b ++ [0]) = strip0 b := by simp [strip0]

theorem strip0_append_nonzero (b : Bytes) {x : Byte} (h : x ≠ 0) : strip0 (b ++ [x]) = b ++ [x] := by
  simpa [strip0] using h

/-! ### The tables (R169, R170) -/

/-- The tables are inverse permutations. -/
theorem invSbox_sbox (a : Byte) : invSbox (sbox a) = a := by
  revert a; decide +kernel

theorem sbox_invSbox (a : Byte) : sbox (invSbox a) = a := by
  revert a; decide +kernel

/-! ### The readers of the command stream (R94) -/

theorem getBytes_append (b rest : Bytes) : getBytes b.length (b ++ rest) = some (b, rest) := by
  simp [getBytes]

theorem getBytes_eq_some {n : Nat} {b x rest : Bytes} :
    getBytes n b = some (x, rest) ↔ b = x ++ rest ∧ x.length = n := by
  unfold getBytes
  constructor
  · intro h
    split at h
    · simp only [Option.some.injEq, Prod.mk.injEq] at h
      obtain ⟨rfl, rfl⟩ := h
      simp; omega
    · cases h
  · rintro ⟨rfl, rfl⟩
    simp

end Sys2Proof.Machine
end

