-- ==== Sys2Proof/Laws/PerInstr.lean ====
section
/-! SUPPORT. A statement about every instruction as syntax, proved for each constructor: the first byte that the encoder
writes is of the instruction's own row of spec/opcode_table.json. -/

namespace Sys2Proof.Laws.TableRow

open Sys2Proof.Machine

/-- The `match` and the `mask` of the row of spec/opcode_table.json. -/
def row : Instr → Byte × Byte
  | .nop => (0x00, 0xFF)
  | .cksum _ => (0x01, 0xFF)
  | .unwrap _ => (0x02, 0xFF)
  | .wrap _ => (0x03, 0xFF)
  | .pdecode _ => (0x04, 0xFF)
  | .pencode _ _ _ _ => (0x05, 0xFF)
  | .pencodex _ _ _ _ _ _ => (0x06, 0xFF)
  | .macdec _ => (0x07, 0xFF)
  | .pldecode _ _ => (0x08, 0xFF)
  | .rxframe _ => (0x09, 0xFF)
  | .txframe _ _ _ _ => (0x0A, 0xFF)
  | .setkey _ => (0x10, 0xFF)
  | .req _ _ _ => (0x00, 0x3C)
  | .response _ _ _ => (0x04, 0x3C)
  | .txtMsg _ _ _ => (0x08, 0x3C)
  | .ack _ _ _ => (0x0C, 0x3C)
  | .advert _ _ _ => (0x10, 0x3C)
  | .grpTxt _ _ _ => (0x14, 0x3C)
  | .grpData _ _ _ => (0x18, 0x3C)
  | .unknown7 _ _ _ => (0x1C, 0x3C)
  | .path _ _ _ => (0x20, 0x3C)
  | .unknown9 _ _ _ => (0x24, 0x3C)
  | .unknownA _ _ _ => (0x28, 0x3C)
  | .control _ _ _ => (0x2C, 0x3C)
  | .unknownC _ _ _ => (0x30, 0x3C)
  | .unknownD _ _ _ => (0x34, 0x3C)
  | .unknownE _ _ _ => (0x38, 0x3C)
  | .rawCustom _ _ _ => (0x3C, 0x3C)

/-- The first byte of the encoding, under the row's mask, is the row's match. -/
def Statement (i : Instr) : Prop := ∃ b t, encode i = b :: t ∧ b &&& (row i).2 = (row i).1

/-- The header byte of a dispatch row under the mask `0x3C`. -/
theorem hdrByte_masked (ver rt : BitVec 2) (code : BitVec 4) :
    hdrByte ver code rt &&& 0x3C = code.setWidth 8 <<< 2 := by
  revert ver rt code; decide

theorem nop : Statement .nop :=
  ⟨_, _, rfl, by simp only [row]; decide⟩

theorem cksum (data : Bytes) : Statement (.cksum data) :=
  ⟨_, _, rfl, by simp only [row]; decide⟩

theorem unwrap (raw : Bytes) : Statement (.unwrap raw) :=
  ⟨_, _, rfl, by simp only [row]; decide⟩

theorem wrap (body : Bytes) : Statement (.wrap body) :=
  ⟨_, _, rfl, by simp only [row]; decide⟩

theorem pdecode (body : Bytes) : Statement (.pdecode body) :=
  ⟨_, _, rfl, by simp only [row]; decide⟩

theorem pencode (rt pt : Byte) (path payload : Bytes) : Statement (.pencode rt pt path payload) :=
  ⟨_, _, rfl, by simp only [row]; decide⟩

theorem pencodex (rt pt hi : Byte) (tc : Option (Half × Half)) (path payload : Bytes) : Statement (.pencodex rt pt hi tc path payload) :=
  ⟨_, _, rfl, by simp only [row]; decide⟩

theorem macdec (buffer : Bytes) : Statement (.macdec buffer) :=
  ⟨_, _, rfl, by simp only [row]; decide⟩

theorem pldecode (pt : Byte) (payload : Bytes) : Statement (.pldecode pt payload) :=
  ⟨_, _, rfl, by simp only [row]; decide⟩

theorem rxframe (raw : Bytes) : Statement (.rxframe raw) :=
  ⟨_, _, rfl, by simp only [row]; decide⟩

theorem txframe (rt pt : Byte) (path payload : Bytes) : Statement (.txframe rt pt path payload) :=
  ⟨_, _, rfl, by simp only [row]; decide⟩

theorem setkey (k : Bytes) : Statement (.setkey k) :=
  ⟨_, _, rfl, by simp only [row]; decide⟩

theorem req (ver rt : BitVec 2) (payload : Bytes) : Statement (.req ver rt payload) :=
  ⟨_, _, rfl, hdrByte_masked ver rt _⟩

theorem response (ver rt : BitVec 2) (payload : Bytes) : Statement (.response ver rt payload) :=
  ⟨_, _, rfl, hdrByte_masked ver rt _⟩

theorem txtMsg (ver rt : BitVec 2) (payload : Bytes) : Statement (.txtMsg ver rt payload) :=
  ⟨_, _, rfl, hdrByte_masked ver rt _⟩

theorem ack (ver rt : BitVec 2) (payload : Bytes) : Statement (.ack ver rt payload) :=
  ⟨_, _, rfl, hdrByte_masked ver rt _⟩

theorem advert (ver rt : BitVec 2) (payload : Bytes) : Statement (.advert ver rt payload) :=
  ⟨_, _, rfl, hdrByte_masked ver rt _⟩

theorem grpTxt (ver rt : BitVec 2) (payload : Bytes) : Statement (.grpTxt ver rt payload) :=
  ⟨_, _, rfl, hdrByte_masked ver rt _⟩

theorem grpData (ver rt : BitVec 2) (payload : Bytes) : Statement (.grpData ver rt payload) :=
  ⟨_, _, rfl, hdrByte_masked ver rt _⟩

theorem unknown7 (ver rt : BitVec 2) (payload : Bytes) : Statement (.unknown7 ver rt payload) :=
  ⟨_, _, rfl, hdrByte_masked ver rt _⟩

theorem path (ver rt : BitVec 2) (payload : Bytes) : Statement (.path ver rt payload) :=
  ⟨_, _, rfl, hdrByte_masked ver rt _⟩

theorem unknown9 (ver rt : BitVec 2) (payload : Bytes) : Statement (.unknown9 ver rt payload) :=
  ⟨_, _, rfl, hdrByte_masked ver rt _⟩

theorem unknownA (ver rt : BitVec 2) (payload : Bytes) : Statement (.unknownA ver rt payload) :=
  ⟨_, _, rfl, hdrByte_masked ver rt _⟩

theorem control (ver rt : BitVec 2) (payload : Bytes) : Statement (.control ver rt payload) :=
  ⟨_, _, rfl, hdrByte_masked ver rt _⟩

theorem unknownC (ver rt : BitVec 2) (payload : Bytes) : Statement (.unknownC ver rt payload) :=
  ⟨_, _, rfl, hdrByte_masked ver rt _⟩

theorem unknownD (ver rt : BitVec 2) (payload : Bytes) : Statement (.unknownD ver rt payload) :=
  ⟨_, _, rfl, hdrByte_masked ver rt _⟩

theorem unknownE (ver rt : BitVec 2) (payload : Bytes) : Statement (.unknownE ver rt payload) :=
  ⟨_, _, rfl, hdrByte_masked ver rt _⟩

theorem rawCustom (ver rt : BitVec 2) (payload : Bytes) : Statement (.rawCustom ver rt payload) :=
  ⟨_, _, rfl, hdrByte_masked ver rt _⟩

end Sys2Proof.Laws.TableRow
end

