-- ==== Sys2Proof/Tests/Slice0.lean ====
section
/-! SUPPORT. Tests of one step or one function each, with values of the spec's own vectors (95_test_vectors.md, named V…)
or worked by hand from its rules, and the witnesses: for each statement with hypotheses, states and operands that meet
them. -/

namespace Sys2Proof.Tests

open Sys2Proof Sys2Proof.Machine

/-! ### Helpers -/

/-- `00 01 .. 0F`, the 16 key bytes of the vectors. -/
def keyBytes : Bytes := [0, 1, 2, 3, 4, 5, 6, 7, 8, 9, 10, 11, 12, 13, 14, 15]

/-- `K0` of the vectors: `00 01 .. 0F` and sixteen zeros. -/
def k0 : Vector Byte 32 := #v[0, 1, 2, 3, 4, 5, 6, 7, 8, 9, 10, 11, 12, 13, 14, 15, 0, 0, 0, 0, 0, 0, 0, 0, 0, 0, 0, 0, 0, 0, 0, 0]

/-- After SETKEY of `keyBytes`. -/
def ready : State := { State.reset with keyValid := true, key := k0, status := .ok }

/-- After a failed decode with the secret `K0`. -/
def running : State := { ready with phase := .run }

/-- A state whose instance fixes a `MAXLEN`. -/
def limited (n : Nat) (s : State) : State := { s with params := { s.params with maxLen := some n } }

/-- The result registers and the phase after an instruction. -/
def after (i : Instr) (s : State) : Option (Status × Byte × Phase × Res) :=
  match exec i s with
  | .next t => some (t.status, t.err, t.phase, t.res)
  | .fault _ => none
  | .refused _ => none

/-- The same without `RES`, for the outcomes that leave it unspecified. -/
def codeAfter (i : Instr) (s : State) : Option (Status × Byte × Phase) := (after i s).map fun r => (r.1, r.2.1, r.2.2.1)

/-- The decoded value after an instruction that ended in `OK` with the phase `RUN`. -/
def decodedAfter (i : Instr) (s : State) : Option Decoded :=
  match after i s with
  | some (.ok, 0x00, .run, .decoded d) => some d
  | _ => none

/-- The state after a step. -/
def stepped (s : State) : Option State :=
  match step s with
  | .next t => some t
  | .fault _ => none
  | .refused _ => none

/-- `ADV` of the vectors. -/
def adv : Bytes :=
  (List.range 32).map (BitVec.ofNat 8) ++ [0x15, 0xCD, 0x5B, 0x07] ++ List.replicate 64 0xEE

/-! ### Well-formedness: one ill-formed term for each check -/

theorem test_wf_long_operand : (Instr.cksum (List.replicate 65536 0)).wf = false
    ∧ (Instr.cksum (List.replicate 65535 0)).wf = true := by
  have h : ∀ n, (Instr.cksum (List.replicate n 0)).wf = decide (n ≤ 65535) := by
    intro n; simp only [Instr.wf, wfBytes, List.length_replicate, Config.maxCs1]
  exact ⟨h _, h _⟩

theorem test_wf_long_path : (Instr.pencode 0 0 (List.replicate 256 0) []).wf = false
    ∧ (Instr.pencode 0 0 (List.replicate 255 0) []).wf = true := by decide +kernel

theorem test_wf_u4 : (Instr.pldecode 16 []).wf = false ∧ (Instr.pldecode 15 []).wf = true := by decide

theorem test_wf_u2 : (Instr.pencodex 0 0 4 none [] []).wf = false ∧ (Instr.pencodex 0 0 1 none [] []).wf = true := by
  decide

theorem test_wf_tc : (Instr.pencodex 0 0 2 none [] []).wf = false
    ∧ (Instr.pencodex 0 0 1 (some (1, 2)) [] []).wf = false
    ∧ (Instr.pencodex 0 0 3 (some (1, 2)) [] []).wf = true := by decide

/-! ### Decoding: every constructor from bytes written out by the formats of R94, R82 and R91 -/

theorem test_decode_nop : decodeCommand [0x00, 0xAA] = .ok (.nop, [0xAA]) := by decide

theorem test_decode_cksum :
    decodeCommand [0x01, 0x04, 0x00, 0x3D, 0x00, 0x41, 0x42] = .ok (.cksum [0x3D, 0x00, 0x41, 0x42], []) := by decide

theorem test_decode_unwrap :
    decodeCommand [0x02, 0x04, 0x00, 0xC0, 0x3E, 0x00, 0x00, 0x99]
      = .ok (.unwrap [0xC0, 0x3E, 0x00, 0x00], [0x99]) := by decide

theorem test_decode_wrap : decodeCommand [0x03, 0x01, 0x00, 0x7F] = .ok (.wrap [0x7F], []) := by decide

theorem test_decode_pdecode : decodeCommand [0x04, 0x02, 0x00, 0x3D, 0x00] = .ok (.pdecode [0x3D, 0x00], []) := by decide

theorem test_decode_pencode :
    decodeCommand [0x05, 0x05, 0x0F, 0x02, 0xAA, 0xBB, 0x01, 0x00, 0x41]
      = .ok (.pencode 5 15 [0xAA, 0xBB] [0x41], []) := by decide

theorem test_decode_pencodex :
    decodeCommand [0x06, 0x02, 0x02, 0x02, 0x34, 0x12, 0xCD, 0xAB, 0x02, 0xAA, 0xBB, 0x01, 0x00, 0x01]
        = .ok (.pencodex 2 2 2 (some (0x1234, 0xABCD)) [0xAA, 0xBB] [0x01], [])
      ∧ decodeCommand [0x06, 0x02, 0x02, 0x01, 0x00, 0x00, 0x00] = .ok (.pencodex 2 2 1 none [] [], []) := by decide

theorem test_decode_macdec : decodeCommand [0x07, 0x03, 0x00, 0x01, 0x02, 0x03] = .ok (.macdec [1, 2, 3], []) := by decide

theorem test_decode_pldecode :
    decodeCommand [0x08, 0x0F, 0x02, 0x00, 0x41, 0x42] = .ok (.pldecode 15 [0x41, 0x42], []) := by decide

theorem test_decode_rxframe : decodeCommand [0x09, 0x02, 0x00, 0xC0, 0x3E] = .ok (.rxframe [0xC0, 0x3E], []) := by decide

theorem test_decode_txframe :
    decodeCommand [0x0A, 0x01, 0x0F, 0x00, 0x02, 0x00, 0x41, 0x42] = .ok (.txframe 1 15 [] [0x41, 0x42], []) := by decide

theorem test_decode_setkey : decodeCommand [0x10, 0x02, 0x00, 0xFE, 0xFF] = .ok (.setkey [0xFE, 0xFF], []) := by decide

/-- The length of a byte string is little-endian: `00 01` is 256, more than the one byte that follows. -/
theorem test_decode_length_order :
    decodeCommand [0x01, 0x00, 0x01, 0x55] = .error .cutShort ∧ decodeCommand [0x01, 0x01, 0x00, 0x55] = .ok (.cksum [0x55], [])
      := by decide

theorem test_decode_unassigned :
    decodeCommand [0x0B] = .error .unknownOpcode ∧ decodeCommand [0x0F, 0x00] = .error .unknownOpcode
      ∧ decodeCommand [0x11] = .error .unknownOpcode ∧ decodeCommand [0xFF] = .error .unknownOpcode := by decide

/-- A header byte for each row: `ver` in bits 7:6, the code in bits 5:2, `rt` in bits 1:0. -/
theorem test_decode_rows :
    decodeHeader 0x01 [9] = .req 0 1 [9]                 -- 00 0000 01
      ∧ decodeHeader 0x46 [9] = .response 1 2 [9]        -- 01 0001 10
      ∧ decodeHeader 0x8B [9] = .txtMsg 2 3 [9]          -- 10 0010 11
      ∧ decodeHeader 0xCC [9] = .ack 3 0 [9]             -- 11 0011 00
      ∧ decodeHeader 0x11 [9] = .advert 0 1 [9]          -- 00 0100 01
      ∧ decodeHeader 0x56 [9] = .grpTxt 1 2 [9]          -- 01 0101 10
      ∧ decodeHeader 0x9B [9] = .grpData 2 3 [9]         -- 10 0110 11
      ∧ decodeHeader 0xDC [9] = .unknown7 3 0 [9]        -- 11 0111 00
      ∧ decodeHeader 0x21 [9] = .path 0 1 [9]            -- 00 1000 01
      ∧ decodeHeader 0x66 [9] = .unknown9 1 2 [9]        -- 01 1001 10
      ∧ decodeHeader 0xAB [9] = .unknownA 2 3 [9]        -- 10 1010 11
      ∧ decodeHeader 0xEC [9] = .control 3 0 [9]         -- 11 1011 00
      ∧ decodeHeader 0x31 [9] = .unknownC 0 1 [9]        -- 00 1100 01
      ∧ decodeHeader 0x76 [9] = .unknownD 1 2 [9]        -- 01 1101 10
      ∧ decodeHeader 0xBB [9] = .unknownE 2 3 [9]        -- 10 1110 11
      ∧ decodeHeader 0xFC [9] = .rawCustom 3 0 [9]       -- 11 1111 00
    := by decide

theorem test_table_words :
    decodeTableWord 8 0x00 = some .nop ∧ decodeTableWord 8 0x10 = some (.setkey [])
      ∧ decodeTableWord 8 0x0C = some (.ack 0 0 []) ∧ decodeTableWord 8 0x3C = some (.rawCustom 0 0 [])
      ∧ decodeTableWord 24 0x0F08 = some (.pldecode 15 []) := by decide +kernel

theorem test_fetch_word :
    stepped (State.reset.withFetchWord 8 0x3C)
        = some { State.reset with phase := .run, status := .ok, res := .decoded (.opaq .rawCustom []) }
      ∧ stepped (State.reset.withFetchWord 8 0x01) = some { State.reset with status := .ok, res := .u16 0 } := by
  decide +kernel

/-! ### The reset state and the parameters -/

theorem test_reset_legal : State.reset.legal = true := by decide

theorem test_default_params_wf : Params.default.wf = true := by decide

theorem test_default_table : Params.default.ptypeTable.toList.length = 16
    ∧ ptypeOf Params.default 0x8 = .peer .path ∧ ptypeClass (ptypeOf Params.default 0xB) = .opaq := by decide

theorem test_route_name : routeNameOf Params.default 1 = Params.flood := by decide

/-! ### The commands -/

/-- V1. -/
theorem test_cksum : after (.cksum [0x3D, 0x00, 0x41, 0x42]) State.reset = some (.ok, 0x00, .config, .u16 0xB9C0) := by
  decide

/-- V1. -/
theorem test_unwrap :
    after (.unwrap [0xC0, 0x3E, 0xC0, 0xB9, 0x3D, 0x00, 0x41, 0x42]) State.reset
      = some (.ok, 0x00, .run, .bytes [0x3D, 0x00, 0x41, 0x42]) := by decide

/-- R133: `[C0 3E 01 00]` has the wrong checksum, and a swapped magic is told before a wrong checksum. -/
theorem test_unwrap_errors :
    codeAfter (.unwrap [0xC0, 0x3E, 0x01, 0x00]) State.reset = some (.err, 0x13, .run)
      ∧ codeAfter (.unwrap [0x3E, 0xC0, 0x01, 0x00]) State.reset = some (.err, 0x12, .run)
      ∧ codeAfter (.unwrap [0xC0, 0x3E, 0x00]) State.reset = some (.err, 0x11, .run) := by decide

/-- V1. -/
theorem test_wrap :
    after (.wrap [0x3D, 0x00, 0x41, 0x42]) State.reset
      = some (.ok, 0x00, .config, .bytes [0xC0, 0x3E, 0xC0, 0xB9, 0x3D, 0x00, 0x41, 0x42]) := by decide

/-- The body of R146's example: version 2, transport codes in wire order, path `AA BB`. -/
theorem test_pdecode :
    after (.pdecode [0x8A, 0x34, 0x12, 0xCD, 0xAB, 0x02, 0xAA, 0xBB, 0x01]) State.reset
      = some (.ok, 0x00, .run, .packet ⟨0x8A, 2, 2, 2, true, some (0x1234, 0xABCD), [0xAA, 0xBB], [0x01]⟩) := by decide

/-- R149 (a), (b), (d), (e). -/
theorem test_pdecode_errors :
    codeAfter (.pdecode []) State.reset = some (.err, 0x21, .run)
      ∧ codeAfter (.pdecode [0x3D]) State.reset = some (.err, 0x22, .run)
      ∧ codeAfter (.pdecode [0x80, 1, 2, 3, 4]) State.reset = some (.err, 0x22, .run)
      ∧ codeAfter (.pdecode [0x3D, 0x03, 0xAA, 0xBB]) State.reset = some (.err, 0x22, .run) := by decide

/-- V1, and a route type above 3 is masked (R145). -/
theorem test_pencode :
    after (.pencode 1 0xF [] [0x41, 0x42]) State.reset = some (.ok, 0x00, .config, .bytes [0x3D, 0x00, 0x41, 0x42])
      ∧ after (.pencode 5 0 [7] []) running = some (.ok, 0x00, .run, .bytes [0x01, 0x01, 0x07]) := by decide

/-- The example of R146, and its refusal. -/
theorem test_pencodex :
    after (.pencodex 2 2 2 (some (0x1234, 0xABCD)) [0xAA, 0xBB] [0x01]) State.reset
        = some (.ok, 0x00, .config, .bytes [0x8A, 0x34, 0x12, 0xCD, 0xAB, 0x02, 0xAA, 0xBB, 0x01])
      ∧ codeAfter (.pencodex 2 2 2 none [] []) State.reset = some (.refused, 0xF4, .config) := by decide

/-- The example of R190 (V30). -/
theorem test_macdec :
    after (.macdec [0x77, 0xE8, 0x94, 0xE1, 0x1C, 0x4E, 0x7B, 0x21, 0xB9, 0xE6, 0x6C, 0x00, 0x82, 0xA5, 0x08, 0x96, 0x04,
        0xEA]) ready = some (.ok, 0x00, .run, .bytes [0x48, 0x65, 0x6C, 0x6C, 0x6F]) := by decide +kernel

/-- V177. -/
theorem test_macdec_no_key : codeAfter (.macdec [0, 0, 0]) State.reset = some (.refused, 0xF3, .run) := by decide

/-- V1. -/
theorem test_pldecode :
    decodedAfter (.pldecode 0xF [0x41, 0x42]) State.reset = some (.opaq .rawCustom [0x41, 0x42]) := by decide

/-- V179 and V181. -/
theorem test_pldecode_turned_away :
    codeAfter (.pldecode 0x10 []) State.reset = some (.refused, 0xF4, .config)
      ∧ codeAfter (.pldecode 4 [1, 2, 3]) State.reset = some (.err, 0x22, .run) := by decide

/-- The example of R252. -/
theorem test_rxframe :
    after (.rxframe [0xC0, 0x3E, 0xC0, 0xB9, 0x3D, 0x00, 0x41, 0x42]) State.reset
      = some (.ok, 0x00, .run, .received ⟨0x3D, 1, 0xF, 0, false, none, [], [0x41, 0x42]⟩
          (.decoded (.opaq .rawCustom [0x41, 0x42]))) := by decide

/-- V180. -/
theorem test_rxframe_short_advert :
    after (.rxframe [0xC0, 0x3E, 0x16, 0x5A, 0x10, 0x00, 0x01, 0x02, 0x03]) State.reset
      = some (.ok, 0x00, .run, .received ⟨0x10, 0, 4, 0, false, none, [], [1, 2, 3]⟩ .malformedTruncated) := by decide

/-- The example of R253. -/
theorem test_txframe :
    after (.txframe 1 0xF [] [0x41, 0x42]) State.reset
      = some (.ok, 0x00, .config, .bytes [0xC0, 0x3E, 0xC0, 0xB9, 0x3D, 0x00, 0x41, 0x42]) := by decide

/-- V170. -/
theorem test_setkey :
    stepped { State.reset with inbox := [.command (.setkey keyBytes)] } = some { ready with res := .nothing } := by decide

/-- V174. -/
theorem test_setkey_locked : codeAfter (.setkey [0xFF]) running = some (.refused, 0xF2, .run) := by decide

/-- V175. -/
theorem test_nop : after .nop State.reset = some (.ok, 0x00, .config, .nothing) := by decide

/-- V178: the opcode byte `0B` in a stream, which ends there. -/
theorem test_unknown_opcode :
    (stepped { State.reset with inbox := [.stream [0x0B, 0x00]] }).map (fun t => (t.status, t.err, t.phase, t.inbox))
      = some (.refused, 0xF1, .config, []) := by decide

/-! ### The dispatch rows -/

/-- V142. -/
theorem test_req :
    decodedAfter (.req 0 0 [0x10, 0x20, 0xFA, 0x5F, 0x12, 0xD2, 0x01, 0xE3, 0x32, 0x90, 0x19, 0x04, 0xC4, 0x4D, 0xF5, 0x9E,
        0x24, 0xB4, 0x31, 0xDE]) ready
      = some (.peer .req 0x10 0x20 [0xEF, 0xBE, 0xAD, 0xDE, 1, 2, 3] (some (.tagged 0xDEADBEEF [1, 2, 3]))) := by
  decide +kernel

/-- V149. -/
theorem test_response :
    decodedAfter (.response 0 0 [0x10, 0x20, 0x8E, 0xD1, 0xD5, 0xE2, 0xFF, 0x66, 0x6F, 0xDC, 0x11, 0x32, 0x6E, 0x47, 0x72,
        0x93, 0x58, 0xFA, 0xE8, 0x40]) ready = some (.peer .response 0x10 0x20 [1, 2, 3] none) := by decide +kernel

/-- V141. -/
theorem test_txtMsg :
    decodedAfter (.txtMsg 0 0 [0x01, 0x02, 0x78, 0xBA, 0xB3, 0x63, 0x8C, 0x90, 0x0E, 0x9B, 0x04, 0xF4, 0xBB, 0xAF, 0x8D,
        0x26, 0x1C, 0x46, 0x3B, 0xB1]) ready
      = some (.peer .txtMsg 1 2 [5, 0, 0, 0, 0, 0x68, 0x69, 0, 0] (some (.text 5 0 [0x68, 0x69] ['h', 'i']))) := by
  decide +kernel

/-- V144. -/
theorem test_path :
    decodedAfter (.path 0 0 [0x10, 0x20, 0xDE, 0xE2, 0x8D, 0x31, 0x73, 0x05, 0x53, 0xF9, 0xB7, 0x9F, 0x7E, 0x63, 0x06, 0x54,
        0xB5, 0x47, 0xA9, 0xD5]) ready = some (.peer .path 0x10 0x20 [0x02, 0xAA, 0xBB, 0x00] none) := by decide +kernel

/-- V136: sub-type 1. -/
theorem test_grpTxt :
    decodedAfter (.grpTxt 0 0 [0x01, 0x8D, 0x47, 0x74, 0x1D, 0xAC, 0x87, 0x71, 0xB1, 0xCA, 0x80, 0x73, 0xD7, 0x13, 0x3C,
        0xBF, 0xE8, 0x28, 0xF9]) ready
      = some (.group .grpTxt 1 [1, 0, 0, 0, 4, 0x78, 0x79, 0x7A] (some ⟨1, 4, 1, none, none⟩)) := by decide +kernel

/-- V135: tampered, and V137 would decode. -/
theorem test_grpData :
    after (.grpData 0 0 [0x5A, 0x92, 0xF2, 0xA4, 0x30, 0x02, 0xCB, 0x7C, 0xCD, 0xC4, 0xEA, 0x9C, 0x6F, 0xD4, 0xFD, 0x47,
        0xAE, 0x10, 0x97]) ready = some (.undec, 0x44, .run, .bytes [0x5A]) := by decide +kernel

/-- V131 to V134. -/
theorem test_group_gate :
    after (.grpTxt 0 0 []) State.reset = some (.undec, 0x41, .run, .bytes [])
      ∧ after (.grpTxt 0 0 [0x5A, 1]) ready = some (.undec, 0x42, .run, .bytes [])
      ∧ after (.grpTxt 0 0 [0x5A, 1, 2]) ready = some (.undec, 0x43, .run, .bytes [0x5A]) := by decide

/-- V111 and V112. -/
theorem test_advert_edges :
    codeAfter (.advert 0 0 (adv.take 99)) State.reset = some (.err, 0x22, .run)
      ∧ decodedAfter (.advert 0 0 (adv ++ [0x81])) State.reset
          = some (.advert ⟨adv.take 32, 123456789, List.replicate 64 0xEE, .chat, some 0x81, none, none, none, none, none,
              none, none, none⟩) := by decide +kernel

/-- V115: latlon omitted, extra1 read where latlon was not; V119: `-0.000001` is `BEB0C6F7A0B5ED8D`. -/
theorem test_advert_fields :
    decodedAfter (.advert 0 0 (adv ++ [0x31, 1, 2, 3, 4, 5])) State.reset
        = some (.advert ⟨adv.take 32, 123456789, List.replicate 64 0xEE, .chat, some 0x31, none, none, none, none,
            some 0x0201, none, none, none⟩)
      ∧ decodedAfter (.advert 0 0 (adv ++ [0x10, 0xFF, 0xFF, 0xFF, 0xFF, 0xFF, 0xFF, 0xFF, 0xFF])) State.reset
        = some (.advert ⟨adv.take 32, 123456789, List.replicate 64 0xEE, .none, some 0x10, some (-1), some (-1),
            some 0xBEB0C6F7A0B5ED8D, some 0xBEB0C6F7A0B5ED8D, none, none, none, none⟩) := by decide +kernel

/-- V160 and V162. -/
theorem test_ack :
    decodedAfter (.ack 0 0 [0x78, 0x56, 0x34, 0x12]) State.reset = some (.ack (some 0x12345678))
      ∧ decodedAfter (.ack 0 0 [0x78, 0x56, 0x34]) State.reset = some (.ack none) := by decide

/-- V165 and V164. -/
theorem test_opaque :
    decodedAfter (.control 0 0 [0x00, 0x41, 0x7F, 0x80]) State.reset = some (.opaq .control [0x00, 0x41, 0x7F, 0x80])
      ∧ decodedAfter (.rawCustom 0 0 [0x41, 0x42]) State.reset = some (.opaq .rawCustom [0x41, 0x42]) := by decide

/-- V166, V167 and the other codes without a type. -/
theorem test_unknown :
    decodedAfter (.unknown7 0 0 [1, 2]) State.reset = some (.unknown 7)
      ∧ decodedAfter (.unknown9 0 0 []) State.reset = some (.unknown 9)
      ∧ decodedAfter (.unknownA 0 0 []) State.reset = some (.unknown 0xA)
      ∧ decodedAfter (.unknownC 0 0 []) State.reset = some (.unknown 0xC)
      ∧ decodedAfter (.unknownD 0 0 []) State.reset = some (.unknown 0xD)
      ∧ decodedAfter (.unknownE 0 0 []) State.reset = some (.unknown 0xE) := by decide

/-! ### The primitives -/

/-- V71. -/
theorem test_sha256 :
    sha256 [0x61, 0x62, 0x63]
      = [0xba, 0x78, 0x16, 0xbf, 0x8f, 0x01, 0xcf, 0xea, 0x41, 0x41, 0x40, 0xde, 0x5d, 0xae, 0x22, 0x23, 0xb0, 0x03, 0x61,
         0xa3, 0x96, 0x17, 0x7a, 0x9c, 0xb4, 0x10, 0xff, 0x61, 0xf2, 0x00, 0x15, 0xad] := by decide +kernel

/-- V78. -/
theorem test_tag2 : tag2 k0.toList (List.replicate 16 0) = [0xFE, 0x6E] := by decide +kernel

/-- V79. -/
theorem test_aes_dec :
    aes128Dec keyBytes [0x69, 0xC4, 0xE0, 0xD8, 0x6A, 0x7B, 0x04, 0x30, 0xD8, 0xCD, 0xB7, 0x80, 0x70, 0xB4, 0xC5, 0x5A]
      = [0x00, 0x11, 0x22, 0x33, 0x44, 0x55, 0x66, 0x77, 0x88, 0x99, 0xAA, 0xBB, 0xCC, 0xDD, 0xEE, 0xFF] := by
  decide +kernel

/-- R198 (c), (f) and V88: padding of one byte; zeros before valid padding stay; a tail that is not padding stays. -/
theorem test_unpad :
    unpad [0, 0, 0, 0, 0, 0, 0, 0, 0, 0, 0, 0, 0, 0, 0x4F, 0x01] = [0, 0, 0, 0, 0, 0, 0, 0, 0, 0, 0, 0, 0, 0, 0x4F]
      ∧ unpad [1, 1, 1, 1, 1, 1, 1, 1, 1, 1, 0x41, 0, 0, 3, 3, 3] = [1, 1, 1, 1, 1, 1, 1, 1, 1, 1, 0x41, 0, 0]
      ∧ unpad [1, 1, 1, 1, 1, 1, 1, 1, 1, 1, 1, 1, 1, 1, 3, 3] = [1, 1, 1, 1, 1, 1, 1, 1, 1, 1, 1, 1, 1, 1, 3, 3] := by
  decide

/-- V117 and V114: invalid bytes are dropped one at a time; two-byte sequences are decoded. -/
theorem test_utf8 :
    utf8Lossy [0x41, 0xFF, 0x42, 0xC3] = ['A', 'B'] ∧ utf8Lossy [0xC5, 0xBD, 0xC3, 0xA1, 0x62, 0x61] = ['Ž', 'á', 'b', 'a']
    := by decide

/-- R219, worked by hand: a lead byte that the next byte does not continue costs one byte, not its row's length. -/
theorem test_utf8_resync :
    utf8Lossy [0xC3, 0x41] = ['A'] ∧ utf8Lossy [0xE2, 0x82, 0x41] = ['A'] ∧ utf8Lossy [0xF0, 0x9F, 0xC3, 0xA1] = ['á']
      ∧ utf8Lossy [0xED, 0xA0, 0x41, 0x42] = ['A', 'B'] := by decide

/-- The example after V167. -/
theorem test_render : render Params.default [0x00, 0x41, 0x7F, 0x80, 0x20, 0x7E] = ['\\', '0', 'A', '.', '.', ' ', '~'] := by
  decide

/-! ### Witnesses: states and operands that meet the hypotheses of each statement, at the edges of their ranges -/

/-- CksumComputesLoop: the empty data, and one byte with the sums of the rule, at the edge of a `MAXLEN` of 1. -/
theorem witness_CksumComputesLoop :
    okBytes (limited 1 State.reset).params [0xFE] = true ∧ okBytes (limited 1 State.reset).params [0xFE, 0] = false
      ∧ ∀ i, i < 1 →
          ((fun n => if n = 0 then 0 else 254) (i + 1) : Nat)
              = ((fun n => if n = 0 then 0 else 254) i + (([0xFE] : Bytes).getD i 0).toNat) % 255
            ∧ ((fun n => if n = 0 then 0 else 254) (i + 1) : Nat)
              = ((fun n => if n = 0 then 0 else 254) i + (fun n => if n = 0 then 0 else 254) (i + 1)) % 255 := by decide

/-- WrapBuildsFrame. -/
theorem witness_WrapBuildsFrame : okBytes (limited 2 State.reset).params [0x3D, 0x00] = true := by decide

/-- UnwrapValidates, a valid frame: the empty body and a body of one byte. -/
theorem witness_UnwrapValidates_ok :
    okBytes State.reset.params [0xC0, 0x3E, 0x00, 0x00] = true ∧ (0x00 : Byte).toNat = closedSum1 []
      ∧ okBytes State.reset.params [0xC0, 0x3E, 0x07, 0x07, 0x07] = true
      ∧ (0x07 : Byte).toNat = closedSum1 [0x07] ∧ (0x07 : Byte).toNat = closedSum2 [0x07] := by decide

/-- UnwrapValidates, the errors: three bytes, a swapped magic, one wrong checksum byte. -/
theorem witness_UnwrapValidates_errors :
    okBytes State.reset.params [0xC0, 0x3E, 0x00] = true ∧ ([0xC0, 0x3E, 0x00] : Bytes).length < 4
      ∧ okBytes State.reset.params [0x3E, 0xC0, 0x00, 0x00] = true ∧ ¬((0x3E : Byte) = 0xC0 ∧ (0xC0 : Byte) = 0x3E)
      ∧ okBytes State.reset.params [0xC0, 0x3E, 0x01, 0x00] = true
      ∧ ¬((0x01 : Byte).toNat = closedSum1 [] ∧ (0x00 : Byte).toNat = closedSum2 []) := by decide

/-- FrameRoundTrip, its second clause. -/
theorem witness_FrameRoundTrip : unwrap [0xC0, 0x3E, 0x07, 0x07, 0x07] = .ok [0x07] := by decide

/-- FletcherCornerCases: a sum that is not 0 before an appended zero, and the two ends of the bit numbers. -/
theorem witness_FletcherCornerCases :
    closedSum1 [0x01] ≠ 0 ∧ fletcher16 [0x01] = 0x0101 ∧ fletcher16 [0x01, 0x00] = 0x0201 ∧ 0 < 8 ∧ 7 < 8
      ∧ closedSum1 [0xFF] = 0 ∧ fletcher16 [0xFF, 0x00] = fletcher16 [0xFF] := by decide

/-- PdecodeParsesBody: the longest path and the empty one, with and without transport codes. -/
theorem witness_PdecodeParsesBody :
    (List.replicate 255 (0xAA : Byte)).length ≤ 255 ∧ ([] : Bytes).length ≤ 255
      ∧ (128 ≤ (0x80 : Byte).toNat ∧ okBytes (limited 6 State.reset).params [0x80, 1, 2, 3, 4, 0] = true)
      ∧ (¬128 ≤ (0x7F : Byte).toNat ∧ okBytes (limited 2 State.reset).params [0x7F, 0] = true) := by decide +kernel

/-- PdecodeTruncates: the empty body; bodies one byte short, at each of the three reads. -/
theorem witness_PdecodeTruncates :
    okBytes State.reset.params [] = true
      ∧ ([1, 2, 3] : Bytes).length < 4 + 1 + (([1, 2, 3] : Bytes).getD 4 0).toNat ∧ 128 ≤ (0x80 : Byte).toNat
      ∧ ([1, 2, 3, 4] : Bytes).length < 4 + 1 + (([1, 2, 3, 4] : Bytes).getD 4 0).toNat
      ∧ ([2, 9] : Bytes).length < 0 + 1 + (([2, 9] : Bytes).getD 0 0).toNat ∧ ¬128 ≤ (0x7F : Byte).toNat := by decide

/-- PencodeBuildsBody, TxframeBuildsFrame: the largest payload type and the longest path. -/
theorem witness_PencodeBuildsBody :
    (15 : Byte).toNat ≤ 15 ∧ (List.replicate 255 (1 : Byte)).length ≤ 255
      ∧ okBytes (limited 255 State.reset).params (List.replicate 255 1) = true
      ∧ okBytes (limited 255 State.reset).params [0x41] = true := by decide +kernel

/-- PencodeRoundTrip: the longest path, and a packet with a non-zero version (V51). -/
theorem witness_PencodeRoundTrip :
    (List.replicate 255 (1 : Byte)).length ≤ 255
      ∧ pdecode [0x7D, 0x00, 0xFF] = .ok ⟨0x7D, 1, 0xF, 1, false, none, [], [0xFF]⟩ ∧ (1 : BitVec 2) ≠ 0 := by
  decide +kernel

/-- PencodexBuildsBody: `hi` at 1 and 2 and 3, and codes that do not go with it, both ways. -/
theorem witness_PencodexBuildsBody :
    (15 : Byte).toNat ≤ 15 ∧ (1 : Byte).toNat < 2 ∧ (2 ≤ (2 : Byte).toNat ∧ (3 : Byte).toNat ≤ 3)
      ∧ (none : Option (Half × Half)).isSome ≠ decide (2 ≤ (3 : Byte).toNat)
      ∧ (some (1, 2) : Option (Half × Half)).isSome ≠ decide (2 ≤ (1 : Byte).toNat)
      ∧ okBytes State.reset.params [1, 2] = true := by decide

/-- PencodexExactRoundTrip. -/
theorem witness_PencodexExactRoundTrip :
    pdecode [0x80, 1, 2, 3, 4, 0] = .ok ⟨0x80, 0, 0, 2, true, some (0x0201, 0x0403), [], []⟩
      ∧ (15 : Byte).toNat ≤ 15 ∧ (3 : Byte).toNat ≤ 3
      ∧ (some (1, 2) : Option (Half × Half)).isSome = decide (2 ≤ (3 : Byte).toNat) := by decide

/-- RxframeDelivers: a frame whose packet parses, and another state with the same secret and table. -/
theorem witness_RxframeDelivers :
    okBytes (limited 8 State.reset).params [0xC0, 0x3E, 0xC0, 0xB9, 0x3D, 0x00, 0x41, 0x42] = true
      ∧ unwrap [0xC0, 0x3E, 0xC0, 0xB9, 0x3D, 0x00, 0x41, 0x42] = .ok [0x3D, 0x00, 0x41, 0x42]
      ∧ pdecode [0x3D, 0x00, 0x41, 0x42] = .ok ⟨0x3D, 1, 0xF, 0, false, none, [], [0x41, 0x42]⟩
      ∧ State.reset.params = { (limited 8 State.reset).params with maxLen := none }
      ∧ State.reset.secret? = (limited 8 State.reset).secret? := by decide

/-- RxframeIsItsParts. -/
theorem witness_RxframeIsItsParts : State.reset.params.maxLen = none := by decide

/-- MacdecSequence: whole blocks with the right tag (V85); a wrong tag; 17 bytes with the right tag (worked with another
implementation of HMAC-SHA256). -/
theorem witness_MacdecSequence :
    okBytes (limited 18 ready).params [0xBB, 0xA4, 0x9C, 0xDD, 0x85, 0xDE, 0x85, 0xB4, 0x8B, 0xED, 0x89, 0x2F, 0x02, 0xD8,
        0xA5, 0xCB, 0xDA, 0xCB] = true
      ∧ tag2 ready.key.toList [0x9C, 0xDD, 0x85, 0xDE, 0x85, 0xB4, 0x8B, 0xED, 0x89, 0x2F, 0x02, 0xD8, 0xA5, 0xCB, 0xDA,
        0xCB] = [0xBB, 0xA4]
      ∧ tag2 ready.key.toList ((List.range 17).map fun i => BitVec.ofNat 8 (0x30 + i)) = [0xEA, 0xA9]
      ∧ tag2 ready.key.toList [0x30] = [0xF0, 0xF9] ∧ ([0xF0, 0xF9] : Bytes) ≠ [0xF0, 0xF8]
      ∧ ready.keyValid = true := by decide +kernel

/-- MacdecSequence, its other clauses: two bytes, and no secret. -/
theorem witness_MacdecSequence_gates :
    okBytes ready.params [1, 2] = true ∧ ready.keyValid = true ∧ ([1, 2] : Bytes).length ≤ 2
      ∧ okBytes State.reset.params [1, 2, 3] = true ∧ State.reset.keyValid = false := by decide

/-- SealedBufferDecrypts: one block that ends neither in a zero nor in valid padding. -/
theorem witness_SealedBufferDecrypts :
    k0.toList.length = 32 ∧ (List.replicate 16 (0x41 : Byte)) ≠ [] ∧ (List.replicate 16 (0x41 : Byte)).length % 16 = 0
      ∧ (∀ a, List.replicate 16 (0x41 : Byte) ≠ a ++ [0x00])
      ∧ (∀ (a : Bytes) (n : Nat), 1 ≤ n → n ≤ 16 →
          List.replicate 16 (0x41 : Byte) ≠ a ++ List.replicate n (BitVec.ofNat 8 n)) := by
  have last : ∀ (a c : Bytes) (x : Byte), List.replicate 16 (0x41 : Byte) = a ++ (c ++ [x]) → x = 0x41 := by
    intro a c x h
    have h' := congrArg List.getLast? h
    rw [← List.append_assoc, List.getLast?_append] at h'
    simpa [List.replicate] using h'.symm
  refine ⟨by decide, by decide, by decide, fun a h => ?_, fun a n h1 h2 h => ?_⟩
  · exact absurd (last a [] 0x00 h) (by decide)
  · obtain ⟨m, rfl⟩ := Nat.exists_eq_add_of_le' h1
    have hx := congrArg BitVec.toNat
      (last a (List.replicate m (BitVec.ofNat 8 (m + 1))) _ (by rw [← List.replicate_succ']; exact h))
    have h65 : (0x41 : Byte).toNat = 65 := by decide
    rw [BitVec.toNat_ofNat, h65] at hx
    omega

/-- AesDecryptInvertsEncrypt and EcbBlocksIndependent. -/
theorem witness_AesDecryptInvertsEncrypt : keyBytes.length = 16 ∧ ∀ b ∈ [keyBytes, List.replicate 16 0], b.length = 16 := by
  decide

/-- UnpadTwoBranches: a whole block of padding, and a block without any. -/
theorem witness_UnpadTwoBranches :
    16 ≤ (List.replicate 16 (0x10 : Byte)).length
      ∧ List.replicate 16 (0x10 : Byte) = [] ++ List.replicate 16 (BitVec.ofNat 8 16)
      ∧ ∀ (a : Bytes) (n : Nat), 1 ≤ n → n ≤ 16 →
          List.replicate 16 (0x41 : Byte) ≠ a ++ List.replicate n (BitVec.ofNat 8 n) :=
  ⟨by decide, by decide, witness_SealedBufferDecrypts.2.2.2.2⟩

/-- Utf8DropsInvalidBytes, its first clause: lead bytes of two, three and four byte rows that what follows does not
continue, beside the rows that do match. -/
theorem witness_Utf8DropsInvalidBytes_rows :
    (∀ row ∈ utf8Rows, utf8RowMatches row [0xC3, 0x41] = false) ∧ (∀ row ∈ utf8Rows, utf8RowMatches row [0xDF, 0xC0] = false)
      ∧ (∀ row ∈ utf8Rows, utf8RowMatches row [0xE2, 0x82, 0x41] = false)
      ∧ (∀ row ∈ utf8Rows, utf8RowMatches row [0xF4, 0x90, 0x80, 0x80] = false)
      ∧ (∃ row ∈ utf8Rows, utf8RowMatches row [0xDF, 0xBF] = true)
      ∧ (∃ row ∈ utf8Rows, utf8RowMatches row [0xF4, 0x8F, 0x80, 0x80] = true) := by decide

/-- Utf8DropsInvalidBytes, its other clauses: the ends of each range, of the first bytes and of the second bytes after
`E0`, `ED`, `F0` and `F4`, and a character cut short. -/
theorem witness_Utf8DropsInvalidBytes :
    (0x80 ≤ (0x80 : Byte).toNat ∧ (0xC1 : Byte).toNat ≤ 0xC1 ∧ 0xF5 ≤ (0xF5 : Byte).toNat)
      ∧ (0x80 ≤ (0x80 : Byte).toNat ∧ (0x9F : Byte).toNat ≤ 0x9F ∧ isCont 0x80 = true ∧ isCont 0xBF = true)
      ∧ (0xA0 ≤ (0xA0 : Byte).toNat ∧ (0xBF : Byte).toNat ≤ 0xBF ∧ utf8Lossy [0xED, 0xA0, 0x80] = [])
      ∧ (0x80 ≤ (0x80 : Byte).toNat ∧ (0x8F : Byte).toNat ≤ 0x8F ∧ utf8Lossy [0xF0, 0x8F, 0xBF, 0x80] = [])
      ∧ (0x90 ≤ (0x90 : Byte).toNat ∧ (0xBF : Byte).toNat ≤ 0xBF ∧ utf8Lossy [0xF4, 0x90, 0x80, 0xBF] = [])
      ∧ 2 < (utf8EncodeChar (Char.ofNat 0x20AC)).length := by decide

/-- DegreesAreNearestBinary64: the ends of the range, and a finite pattern. -/
theorem witness_DegreesAreNearestBinary64 :
    (-2 ^ 31 ≤ (-2 ^ 31 : Int) ∧ (2 ^ 31 - 1 : Int) < 2 ^ 31) ∧ f64Finite (divMillion (-2 ^ 31)) = true := by decide

/-- AdvertDecodesPrefix, AdvertTruncates, AdvertOptionalFields: 100 bytes, 99 bytes, one byte of `app_data`. -/
theorem witness_Advert :
    okBytes (limited 100 State.reset).params adv = true ∧ adv.length = 100 ∧ (4 : Byte).toNat ≤ 15
      ∧ ptypeOf State.reset.params ((4 : Byte).setWidth 4) = .advert ∧ (adv.take 99).length < 100
      ∧ okBytes (limited 101 State.reset).params (adv ++ [0xF1]) = true := by decide

/-- AdvertTruncates, UndecryptableReasons: PLDECODE and a row decode a payload as their type. -/
theorem witness_decodesAs :
    decodesAs State.reset.params .advert 4 [1] (.pldecode 4 [1]) ∧ decodesAs State.reset.params .advert 4 [1] (.advert 3 1 [1])
      ∧ decodesAs State.reset.params (.peer .path) 8 [1] (.path 0 0 [1])
      ∧ hashBytes (.peer .path) = some 2 ∧ hashBytes (.group .grpTxt) = some 1 :=
  ⟨.inl ⟨4, by decide, by decide, by decide, rfl⟩, .inr ⟨3, 1, by decide, by decide⟩, .inr ⟨0, 0, by decide, by decide⟩, rfl, rfl⟩

/-- GroupPayloadDecodes (V136, V137): plaintexts of 8 and of 3 bytes. -/
theorem witness_GroupPayloadDecodes :
    okBytes (limited 19 ready).params [0x01, 0x8D, 0x47, 0x74, 0x1D, 0xAC, 0x87, 0x71, 0xB1, 0xCA, 0x80, 0x73, 0xD7, 0x13,
        0x3C, 0xBF, 0xE8, 0x28, 0xF9] = true ∧ ready.keyValid = true
      ∧ macDec ready.key.toList [0x8D, 0x47, 0x74, 0x1D, 0xAC, 0x87, 0x71, 0xB1, 0xCA, 0x80, 0x73, 0xD7, 0x13, 0x3C, 0xBF,
          0xE8, 0x28, 0xF9] = .ok [1, 0, 0, 0, 4, 0x78, 0x79, 0x7A]
      ∧ macDec ready.key.toList [0x8E, 0xD1, 0xD5, 0xE2, 0xFF, 0x66, 0x6F, 0xDC, 0x11, 0x32, 0x6E, 0x47, 0x72, 0x93, 0x58,
          0xFA, 0xE8, 0x40] = .ok [1, 2, 3]
      ∧ ptypeOf ready.params ((5 : Byte).setWidth 4) = .group .grpTxt := by decide +kernel

/-- PeerPayloadDecodes (V143, V149): a tag with no data, and a plaintext of 3 bytes. -/
theorem witness_PeerPayloadDecodes :
    okBytes (limited 20 ready).params [0x10, 0x20, 0xB0, 0x1D, 0x88, 0xBA, 0xDF, 0x8F, 0x11, 0x31, 0x36, 0x23, 0xD6, 0x42,
        0x7F, 0x84, 0xF6, 0xF9, 0xD6, 0x62] = true ∧ ready.keyValid = true
      ∧ macDec ready.key.toList [0xB0, 0x1D, 0x88, 0xBA, 0xDF, 0x8F, 0x11, 0x31, 0x36, 0x23, 0xD6, 0x42, 0x7F, 0x84, 0xF6,
          0xF9, 0xD6, 0x62] = .ok [7, 0, 0, 0]
      ∧ macDec ready.key.toList [0x8E, 0xD1, 0xD5, 0xE2, 0xFF, 0x66, 0x6F, 0xDC, 0x11, 0x32, 0x6E, 0x47, 0x72, 0x93, 0x58,
          0xFA, 0xE8, 0x40] = .ok [1, 2, 3]
      ∧ ptypeOf ready.params ((8 : Byte).setWidth 4) = .peer .path := by decide +kernel

/-- UndecryptableReasons: each of the five, for one hash byte, at the lengths where they meet. -/
theorem witness_UndecryptableReasons :
    State.reset.keyValid = false ∧ ready.keyValid = true
      ∧ ([1, 2] : Bytes).length < 1 + 2 ∧ ([1, 2, 3] : Bytes).length = 1 + 2
      ∧ (1 + 2 < ([1, 0xF0, 0xF8, 0x30] : Bytes).length
          ∧ (([1, 0xF0, 0xF8, 0x30] : Bytes).drop 1).take 2 ≠ tag2 ready.key.toList (([1, 0xF0, 0xF8, 0x30] : Bytes).drop 3))
      ∧ ((([1, 0xF0, 0xF9, 0x30] : Bytes).drop 1).take 2 = tag2 ready.key.toList (([1, 0xF0, 0xF9, 0x30] : Bytes).drop 3)
          ∧ (([1, 0xF0, 0xF9, 0x30] : Bytes).length - 3) % 16 ≠ 0) := by decide +kernel

/-- UndecryptableReasons, its last clause, and OutcomeTable: a step that ends so. -/
theorem witness_undecryptable_outcome :
    after (.pldecode 5 [1, 0xF0, 0xF9, 0x30]) ready = some (.undec, 0x45, .run, .bytes [1]) := by decide +kernel

/-- AckReportsCrc, OpaqueAndUnknownPayloads: codes of these types. -/
theorem witness_plain_types :
    okBytes (limited 3 State.reset).params [1, 2, 3] = true ∧ ptypeOf State.reset.params ((3 : Byte).setWidth 4) = .ack
      ∧ ptypeOf State.reset.params ((0xB : Byte).setWidth 4) = .opaq .control
      ∧ ptypeOf State.reset.params ((0xF : Byte).setWidth 4) = .opaq .rawCustom
      ∧ ptypeOf State.reset.params ((0x7 : Byte).setWidth 4) = .unknown ∧ (0xF : Byte).toNat ≤ 15
      ∧ ([1, 2, 3] : Bytes).length < 4 ∧ 4 ≤ ([1, 2, 3, 4] : Bytes).length := by decide

/-- HeaderDispatchIsPldecode. -/
theorem witness_HeaderDispatchIsPldecode : State.reset.params.ptypeTable = Params.defaultTable := by decide

/-- SetkeyInstallsSecret: both phases, and an operand at the edge of a `MAXLEN`. -/
theorem witness_SetkeyInstallsSecret :
    State.reset.phase = .config ∧ running.phase = .run ∧ okBytes (limited 16 State.reset).params keyBytes = true := by decide

/-- MalformedOperandsRefused: malformed operands one past each edge, and one that is not. -/
theorem witness_MalformedOperandsRefused :
    malformed State.reset.params (.pldecode 16 []) ∧ ¬malformed State.reset.params (.pldecode 15 [])
      ∧ malformed (limited 1 State.reset).params (.cksum [1, 2])
      ∧ malformed (limited 1 State.reset).params (.pencode 0 0 [1, 2] [])
      ∧ malformed (limited 1 State.reset).params (.ack 0 0 [1, 2])
      ∧ malformed State.reset.params (.pencodex 0 0 1 (some (1, 2)) [] [])
      ∧ malformed State.reset.params (.pencodex 0 0 4 (some (1, 2)) [] [])
      ∧ malformed State.reset.params (.txframe 0 0 (List.replicate 256 0) []) := by
  refine ⟨.inr (by decide), ?_, .inl ⟨1, rfl, [1, 2], by simp [byteOperands], by decide⟩,
    .inl ⟨1, rfl, [1, 2], by simp [byteOperands], by decide⟩, .inl ⟨1, rfl, [1, 2], by simp [byteOperands], by decide⟩,
    .inr (.inr (.inr (.inl (by decide)))), .inr (.inr (.inl (by decide))), .inr (.inr ?_)⟩
  · rintro (⟨m, h, _⟩ | h)
    · simp [State.reset, Params.default] at h
    · exact absurd h (by decide)
  · rw [List.length_replicate]; decide

/-- ErrorEntry, OutcomeTable: an instruction that ends in an error, and one that is refused. -/
theorem witness_ErrorEntry :
    codeAfter (.unwrap []) ready = some (.err, 0x11, .run) ∧ codeAfter (.macdec []) State.reset = some (.refused, 0xF3, .run)
      := by decide

/-- PhaseRule: a decode operation accepted in `CONFIG`, and a SETKEY that succeeds. -/
theorem witness_PhaseRule :
    isDecodeOp (.pdecode []) = true ∧ codeAfter (.pdecode []) State.reset = some (.err, 0x21, .run)
      ∧ isSetkey (.setkey [1]) = true ∧ codeAfter (.setkey [1]) State.reset = some (.ok, 0x00, .config) := by decide

/-- OutcomeIsAFunctionOfContext and KeyUnreadWhileInvalid: states that differ in what the statements let differ. -/
theorem witness_context :
    let s' : State := { State.reset with status := .err, err := 0x11, res := .u16 7 }
    s' ≠ State.reset ∧ s'.params = State.reset.params ∧ s'.keyValid = State.reset.keyValid ∧ s'.key = State.reset.key
      ∧ s'.phase = State.reset.phase ∧ State.reset.keyValid = false ∧ k0 ≠ State.reset.key := by decide

/-- OrderDoesNotMatterInRun. -/
theorem witness_OrderDoesNotMatterInRun : running.phase = .run := by decide

/-- StepRunsDecoded: a stream of two commands, one whose `u4` is out of range before another command, a command, a
payload. -/
theorem witness_StepRunsDecoded :
    decodeCommand [0x08, 0x0F, 0x00, 0x00, 0x00] = .ok (.pldecode 15 [], [0x00])
      ∧ decodeCommand [0x08, 0x10, 0x00, 0x00, 0x00] = .ok (.pldecode 16 [], [0x00]) ∧ (Instr.pldecode 16 []).wf = false
      ∧ ({ State.reset with inbox := [.stream [0x08, 0x10, 0x00, 0x00, 0x00]] } : State).inbox
          = [.stream [0x08, 0x10, 0x00, 0x00, 0x00]]
      ∧ ({ State.reset with inbox := [.command .nop, .reset] } : State).inbox = [.command .nop, .reset]
      ∧ ({ State.reset with inbox := [.payload 0x3C []] } : State).inbox = [.payload 0x3C []] := by decide

/-- R94 and log entry 17: the command with the out-of-range `u4` is refused, and the stream goes on after it. -/
theorem test_stream_goes_on :
    (stepped { State.reset with inbox := [.stream [0x08, 0x10, 0x00, 0x00, 0x00]] }).map
        (fun t => (t.status, t.err, t.phase, t.inbox)) = some (.refused, 0xF4, .config, [.stream [0x00]]) := by decide

/-- LegalKeptByStep: a legal state with a step that performs an operation. -/
theorem witness_LegalKeptByStep :
    running.legal = true
      ∧ (stepped { running with inbox := [.command (.setkey [1])] }).map (fun t => (t.status, t.legal))
          = some (.refused, true) := by decide

/-- ResetEventRestores, and RunIsLeftByResetOnly with its hypotheses. -/
theorem witness_ResetEventRestores :
    (stepped { running with inbox := [.reset, .command .nop] }).map (fun t => (t.keyValid, t.phase, t.status, t.inbox))
        = some (false, .config, .idle, [.command .nop])
      ∧ running.phase = .run ∧ running.keyValid = true ∧ stepped running = some running := by decide

/-- RunIsLeftByResetOnly: what is issued is not the reset event. -/
theorem witness_RunIsLeftByResetOnly (q : List HostItem) :
    ({ running with inbox := [.command .nop] } : State).inbox ≠ .reset :: q := by simp

/-- UnassignedOpcodeRefused: the bytes on both sides of the assigned ones. -/
theorem witness_UnassignedOpcodeRefused :
    ¬((0x0B : Byte).toNat ≤ 0x0A ∨ (0x0B : Byte).toNat = 0x10) ∧ ¬((0x0F : Byte).toNat ≤ 0x0A ∨ (0x0F : Byte).toNat = 0x10)
      ∧ ¬((0x11 : Byte).toNat ≤ 0x0A ∨ (0x11 : Byte).toNat = 0x10) ∧ ¬((0xFF : Byte).toNat ≤ 0x0A ∨ (0xFF : Byte).toNat = 0x10)
      := by decide

/-- DecodeEncodedCommand, DecodedCommandReencodes, DecodeEncodedHeader, CutShortCommandRefused. -/
theorem witness_encoding :
    (Instr.txframe 0xFF 15 [1] [2]).wf = true ∧ (Instr.txframe 0xFF 15 [1] [2]).isCommand = true
      ∧ decodeCommand (encode (.txframe 0xFF 15 [1] [2]) ++ [0x77]) = .ok (.txframe 0xFF 15 [1] [2], [0x77])
      ∧ (Instr.rawCustom 3 3 [1]).isCommand = false
      ∧ 7 < (encode (.txframe 0xFF 15 [1] [2])).length
      ∧ decodeCommand ((encode (.txframe 0xFF 15 [1] [2])).take 7) = .error .cutShort := by decide

/-- InstancesDoNotInterfere: two instances, one with a command to perform. -/
theorem witness_InstancesDoNotInterfere :
    (∀ k ∈ [0, 1, 0], k < [{ State.reset with inbox := [.command .nop] }, State.reset].length)
      ∧ (([{ State.reset with inbox := [.command .nop] }, State.reset] : Cluster).drop 1).head? = some State.reset := by
  decide

end Sys2Proof.Tests
end

section
/-! PROOFS. What an instruction does, in one form for all twenty-eight (R254): an operand test, a preparation of the
context (PHASE and the secret), and an outcome written to the result registers. Every statement about "every
instruction" goes through `exec_cases` and the lemmas about these three parts. -/

namespace Sys2Proof.Machine

/-! ### The three parts of an instruction -/

/-- The operand test of each instruction (R254 (2), R256). -/
def operandsOk (ps : Params) : Instr → Bool
  | .nop => true
  | .pencode _ pt path payload | .txframe _ pt path payload => okPencode ps pt path payload
  | .pencodex _ pt hi tc path payload => okPencode ps pt path payload && okU2 hi && okTc hi tc
  | .pldecode pt payload => okU4 pt && okBytes ps payload
  | .cksum b | .unwrap b | .wrap b | .pdecode b | .macdec b | .rxframe b | .setkey b => okBytes ps b
  | .req _ _ b | .response _ _ b | .txtMsg _ _ b | .ack _ _ b | .advert _ _ b | .grpTxt _ _ b | .grpData _ _ b
  | .unknown7 _ _ b | .path _ _ b | .unknown9 _ _ b | .unknownA _ _ b | .control _ _ b | .unknownC _ _ b
  | .unknownD _ _ b | .unknownE _ _ b | .rawCustom _ _ b => okBytes ps b

/-- What an accepted instruction does to the context: SETKEY in `CONFIG` writes the secret (R250), a decode operation
enters `RUN` (R22), and no other instruction touches it. -/
def State.prepare (i : Instr) (s : State) : State :=
  match i with
  | .setkey k => match s.phase with
    | .config => s.installKey k
    | .run => s
  | i => if isDecodeOp i then s.enterRun else s

/-- The outcome of an accepted instruction, of the secret and the phase in which it is accepted. -/
def acceptedOutcome (ps : Params) (secret? : Option Bytes) (phase : Phase) : Instr → OpOutcome
  | .nop => .ok .nothing
  | .cksum data => .ok (.u16 (fletcher16 data))
  | .unwrap raw => match unwrap raw with
    | .ok body => .ok (.bytes body)
    | .error e => .err (.frame e)
  | .wrap body => .ok (.bytes (wrap body))
  | .pdecode body => match pdecode body with
    | .ok p => .ok (.packet p)
    | .error e => .err (.packet e)
  | .pencode rt pt path payload => .ok (.bytes (pencode rt pt path payload))
  | .pencodex rt pt hi tc path payload => .ok (.bytes (pencodex rt pt hi tc path payload))
  | .macdec buffer => match secret? with
    | none => .refused .noKey
    | some secret => match macDec secret buffer with
      | .ok plain => .ok (.bytes plain)
      | .error e => .err (.crypto e)
  | .pldecode pt p => payloadEnd (decodePayload secret? (ptypeOf ps (pt.setWidth 4)) (pt.setWidth 4) p)
  | .rxframe raw => match rxframe ps secret? raw with
    | .ok (pkt, po) => .ok (.received pkt po)
    | .error e => .err e
  | .txframe rt pt path payload => .ok (.bytes (wrap (pencode rt pt path payload)))
  | .setkey _ => match phase with
    | .run => .refused .keyLocked
    | .config => .ok .nothing
  | .req _ _ p => payloadEnd (decodePayload secret? (.peer .req) 0x0 p)
  | .response _ _ p => payloadEnd (decodePayload secret? (.peer .response) 0x1 p)
  | .txtMsg _ _ p => payloadEnd (decodePayload secret? (.peer .txtMsg) 0x2 p)
  | .ack _ _ p => payloadEnd (decodePayload secret? .ack 0x3 p)
  | .advert _ _ p => payloadEnd (decodePayload secret? .advert 0x4 p)
  | .grpTxt _ _ p => payloadEnd (decodePayload secret? (.group .grpTxt) 0x5 p)
  | .grpData _ _ p => payloadEnd (decodePayload secret? (.group .grpData) 0x6 p)
  | .unknown7 _ _ p => payloadEnd (decodePayload secret? .unknown 0x7 p)
  | .path _ _ p => payloadEnd (decodePayload secret? (.peer .path) 0x8 p)
  | .unknown9 _ _ p => payloadEnd (decodePayload secret? .unknown 0x9 p)
  | .unknownA _ _ p => payloadEnd (decodePayload secret? .unknown 0xA p)
  | .control _ _ p => payloadEnd (decodePayload secret? (.opaq .control) 0xB p)
  | .unknownC _ _ p => payloadEnd (decodePayload secret? .unknown 0xC p)
  | .unknownD _ _ p => payloadEnd (decodePayload secret? .unknown 0xD p)
  | .unknownE _ _ p => payloadEnd (decodePayload secret? .unknown 0xE p)
  | .rawCustom _ _ p => payloadEnd (decodePayload secret? (.opaq .rawCustom) 0xF p)

/-- An accepted instruction, performed whole. -/
def State.perform (i : Instr) (s : State) : State :=
  (s.prepare i).finish (acceptedOutcome s.params s.secret? s.phase i)

/-- SETKEY's two ends in the common form. -/
theorem State.setKey_eq_perform (k : Bytes) (s : State) : s.setKey k = s.perform (.setkey k) := by
  obtain ⟨hp, h⟩ | ⟨hp, h⟩ := s.setKey_cases k <;>
    simp [h, State.perform, State.prepare, acceptedOutcome, hp]

/-- Every instruction is accepted and performed by the three parts above. Each arm of `exec` says so by definition but
SETKEY's, which looks at the phase first. -/
theorem exec_eq (i : Instr) (s : State) :
    exec i s = .next (s.accept (operandsOk s.params i) (State.perform i)) := by
  cases i with
  | setkey k =>
    have h : State.setKey k = State.perform (.setkey k) := funext (State.setKey_eq_perform k)
    exact h ▸ rfl
  | _ => rfl

theorem exec_of_ok {i : Instr} {s : State} (h : operandsOk s.params i = true) : exec i s = .next (s.perform i) := by
  rw [exec_eq, State.accept_of_ok h]

theorem exec_of_bad {i : Instr} {s : State} (h : operandsOk s.params i = false) :
    exec i s = .next (s.refuse .badOperand) := by
  rw [exec_eq, State.accept_of_bad h]

/-- Everything an instruction can do: it is performed, or refused for a bad operand. -/
theorem exec_cases (i : Instr) (s : State) :
    (operandsOk s.params i = true ∧ exec i s = .next (s.perform i))
      ∨ (operandsOk s.params i = false ∧ exec i s = .next (s.refuse .badOperand)) := by
  cases h : operandsOk s.params i
  · exact .inr ⟨rfl, exec_of_bad h⟩
  · exact .inl ⟨rfl, exec_of_ok h⟩

/-! ### The operand test against the list of malformed operands (R256) -/

theorem okBytes_iff {ps : Params} {b : Bytes} : okBytes ps b = true ↔ ∀ m, ps.maxLen = some m → b.length ≤ m := by
  unfold okBytes
  cases ps.maxLen <;> simp

/-- No byte string of an instruction is over `MAXLEN` exactly when each one passes its own test. -/
theorem not_overMaxLen_iff {ps : Params} {i : Instr} :
    ¬overMaxLen ps i ↔ ∀ b ∈ byteOperands i, okBytes ps b = true := by
  simp only [overMaxLen, okBytes_iff, not_exists, not_and, not_lt]
  exact ⟨fun h b hb m hm => h m hm b hb, fun h m hm b hb => h b hb m hm⟩

theorem okPencode_iff {ps : Params} {pt : Byte} {path payload : Bytes} :
    okPencode ps pt path payload = true ↔
      pt.toNat ≤ 15 ∧ path.length ≤ 255 ∧ okBytes ps path = true ∧ okBytes ps payload = true := by
  simp only [okPencode, okPath, okU4, Bool.and_eq_true, decide_eq_true_eq, and_assoc]
  rfl

/-- Bit 1 of a two-bit number is set from 2 on. -/
theorem bit1_eq_decide {hi : Byte} (h : hi.toNat ≤ 3) : (hi &&& 2 != 0) = decide (2 ≤ hi.toNat) := by
  revert hi; decide

/-- The operand test turns away the malformed operands and no others. -/
theorem operandsOk_iff {ps : Params} {i : Instr} : operandsOk ps i = true ↔ ¬malformed ps i := by
  unfold malformed
  rw [not_or, not_overMaxLen_iff]
  cases i with
  | pencode rt pt path payload | txframe rt pt path payload =>
    simp [operandsOk, byteOperands, okPencode_iff]; tauto
  | pencodex rt pt hi tc path payload =>
    have htc (h : hi.toNat ≤ 3) : okTc hi tc = true ↔ tc.isSome = decide (2 ≤ hi.toNat) := by
      simp only [okTc, bit1_eq_decide h, beq_iff_eq]
    simp only [operandsOk, byteOperands, okPencode_iff, okU2, Bool.and_eq_true, decide_eq_true_eq, List.mem_cons,
      List.not_mem_nil, or_false, forall_eq_or_imp, forall_eq, not_or, not_lt, ne_eq, not_not]
    tauto
  | pldecode pt payload => simp [operandsOk, byteOperands, okU4, and_comm]
  | _ => simp [operandsOk, byteOperands]

/-! ### The context that an instruction leaves -/

/-- What an accepted instruction can do to the context. -/
theorem State.prepare_cases (i : Instr) (s : State) :
    (isDecodeOp i = true ∧ s.prepare i = s.enterRun)
      ∨ (isDecodeOp i = false ∧ s.prepare i = s)
      ∨ (∃ k, i = .setkey k ∧ s.phase = .config ∧ s.prepare i = s.installKey k) := by
  unfold State.prepare
  split
  · cases s.phase <;> simp [isDecodeOp]
  · split_ifs with h <;> simp [h]

@[simp] theorem State.prepare_phase (i : Instr) (s : State) :
    (s.prepare i).phase = if isDecodeOp i then .run else s.phase := by
  obtain ⟨hd, h⟩ | ⟨hd, h⟩ | ⟨k, rfl, -, h⟩ := s.prepare_cases i
  · simp [h, hd]
  · simp [h, hd]
  · simp [h, isDecodeOp]

/-- The secret that an accepted instruction leaves is a function of the secret and the phase. -/
theorem State.prepare_secret_congr {s s' : State} (i : Instr) (hv : s'.keyValid = s.keyValid) (hk : s'.key = s.key)
    (hp : s'.phase = s.phase) :
    (s'.prepare i).keyValid = (s.prepare i).keyValid ∧ (s'.prepare i).key = (s.prepare i).key := by
  unfold State.prepare
  split
  · rw [hp]; cases s.phase <;> simp [hv, hk]
  · split_ifs <;> simp [hv, hk]

theorem State.secret?_congr {s s' : State} (hv : s'.keyValid = s.keyValid) (hk : s'.key = s.key) :
    s'.secret? = s.secret? := by
  simp [State.secret?, hv, hk]

theorem isSetkey_iff {i : Instr} : isSetkey i = true ↔ ∃ k, i = .setkey k := by cases i <;> simp [isSetkey]

/-- An accepted SETKEY completes in `CONFIG` only (R254 (3)). -/
theorem State.perform_setkey_status (k : Bytes) (s : State) :
    (s.perform (.setkey k)).status = .ok ↔ s.phase = .config := by
  rw [← State.setKey_eq_perform]
  obtain ⟨hp, h⟩ | ⟨hp, h⟩ := s.setKey_cases k <;> simp [h, hp]

end Sys2Proof.Machine
end

section
/-! PROOFS. The registers agree with one another (R23, R270 to R272), `KEY` is not read while it is not valid (R21), and
the statements about the state that are settled by these. -/

namespace Sys2Proof.Machine

/-! ### Outcomes and the registers that agree with them -/

theorem State.secret?_eq_none_iff {s : State} : s.secret? = none ↔ s.keyValid = false := by
  simp [State.secret?]

theorem State.keyValid_of_secret? {s : State} {k : Bytes} (h : s.secret? = some k) : s.keyValid = true := by
  by_contra hv
  simp [State.secret?_of_invalid (by simpa using hv)] at h

/-- The outcomes in which an operation may end in a given context (R270 to R272, R254). -/
def State.admits (s : State) : OpOutcome → Prop
  | .ok _ => True
  | .err (.crypto _) => s.phase = .run ∧ s.keyValid = true
  | .err _ => s.phase = .run
  | .undecryptable .noSecret clear => s.phase = .run ∧ s.keyValid = false ∧ clear = []
  | .undecryptable .payloadTooShort clear => s.phase = .run ∧ s.keyValid = true ∧ clear = []
  | .undecryptable _ clear => s.phase = .run ∧ s.keyValid = true ∧ (clear.length = 1 ∨ clear.length = 2)
  | .refused .keyLocked => s.phase = .run
  | .refused .noKey => s.phase = .run ∧ s.keyValid = false
  | .refused _ => True

/-- The result registers agree with the context exactly when it admits the outcome written to them. -/
theorem State.legal_finish_iff (o : OpOutcome) (s : State) : (s.finish o).legal = true ↔ s.admits o := by
  cases o with
  | ok v => simp [State.legal, State.admits]
  | err e => rcases e with e | e | e <;> cases e <;> simp [State.legal, State.admits, errCode]
  | undecryptable r clear =>
    cases r <;> cases hv : s.keyValid <;> simp [State.legal, State.admits, undecCode, hv]
  | refused r => cases r <;> simp [State.legal, State.admits, refuseCode]

/-- The undecryptable reasons that come from a crypto error need a secret and the hash bytes (R231, R271). -/
theorem State.admits_undecOf (e : CryptoErr) {clear : Bytes} {s : State} (hp : s.phase = .run)
    (hv : s.keyValid = true) (hc : clear.length = 1 ∨ clear.length = 2) :
    s.admits (.undecryptable (undecOf e) clear) := by
  cases e <;> exact ⟨hp, hv, hc⟩

/-- However a payload decodes, its end is one that phase `RUN` with the same secret admits (R210, R271). -/
theorem State.admits_decodePayload (t : PType) (code : BitVec 4) (p : Bytes) (s : State) :
    s.enterRun.admits (payloadEnd (decodePayload s.secret? t code p)) := by
  cases t with
  | group g =>
    obtain ⟨hs, h⟩ | ⟨k, hs, -, h⟩ | ⟨k, e, hs, -, -, h⟩ | ⟨k, plain, hs, -, -, h⟩ :=
      decodeGroup_cases s.secret? g p <;> rw [decodePayload, h]
    · exact ⟨rfl, State.secret?_eq_none_iff.1 hs, rfl⟩
    · exact ⟨rfl, State.keyValid_of_secret? hs, rfl⟩
    · exact State.admits_undecOf e rfl (State.keyValid_of_secret? hs) (.inl rfl)
    · trivial
  | peer r =>
    obtain ⟨hs, h⟩ | ⟨k, hs, -, h⟩ | ⟨k, e, hs, -, -, h⟩ | ⟨k, plain, hs, -, -, h⟩ :=
      decodePeer_cases s.secret? r p <;> rw [decodePayload, h]
    · exact ⟨rfl, State.secret?_eq_none_iff.1 hs, rfl⟩
    · exact ⟨rfl, State.keyValid_of_secret? hs, rfl⟩
    · exact State.admits_undecOf e rfl (State.keyValid_of_secret? hs) (.inr rfl)
    · trivial
  | advert =>
    simp only [decodePayload, decodeAdvert]
    split_ifs
    · exact s.enterRun_phase
    · trivial
  | ack | opaq o | unknown => trivial

/-- RXFRAME ends in no crypto error: its payload's failure stands inside the result (R252). -/
theorem rxframe_error_not_crypto {ps : Params} {secret? : Option Bytes} {raw : Bytes} {e : Err}
    (h : rxframe ps secret? raw = .error e) : ∀ c, e ≠ .crypto c := by
  unfold rxframe at h
  split at h
  · cases h; simp
  · split at h <;> cases h; simp

theorem State.admits_err_of_not_crypto {e : Err} {s : State} (hp : s.phase = .run) (h : ∀ c, e ≠ .crypto c) :
    s.admits (.err e) := by
  cases e with
  | crypto c => exact absurd rfl (h c)
  | frame c | packet c => exact hp

/-- The context that an accepted instruction leaves admits the instruction's outcome. -/
theorem State.prepare_admits (i : Instr) (s : State) :
    (s.prepare i).admits (acceptedOutcome s.params s.secret? s.phase i) := by
  cases i with
  | nop | cksum | wrap | pencode | pencodex | txframe => trivial
  | ack | control | rawCustom | unknown7 | unknown9 | unknownA | unknownC | unknownD | unknownE => trivial
  | unwrap raw =>
    simp only [acceptedOutcome]
    cases unwrap raw with
    | ok body => trivial
    | error e => exact s.enterRun_phase
  | pdecode body =>
    simp only [acceptedOutcome]
    cases pdecode body with
    | ok p => trivial
    | error e => exact s.enterRun_phase
  | macdec buffer =>
    simp only [acceptedOutcome]
    cases hs : s.secret? with
    | none => exact ⟨s.enterRun_phase, State.secret?_eq_none_iff.1 hs⟩
    | some secret =>
      simp only
      cases macDec secret buffer with
      | ok plain => trivial
      | error e => exact ⟨s.enterRun_phase, State.keyValid_of_secret? hs⟩
  | rxframe raw =>
    simp only [acceptedOutcome]
    cases hr : rxframe s.params s.secret? raw with
    | ok r => trivial
    | error e => exact State.admits_err_of_not_crypto s.enterRun_phase (rxframe_error_not_crypto hr)
  | setkey k =>
    cases hp : s.phase with
    | config => trivial
    | run => simp [acceptedOutcome, State.admits, isDecodeOp, hp]
  | pldecode | req | response | txtMsg | path | advert | grpTxt | grpData => exact s.admits_decodePayload _ _ _

/-- Whatever the registers held, an instruction leaves them in agreement. -/
theorem exec_legal {i : Instr} {s t : State} (h : exec i s = .next t) : t.legal = true := by
  obtain ⟨-, he⟩ | ⟨-, he⟩ := exec_cases i s <;> rw [he] at h <;> cases h
  · exact (State.legal_finish_iff _ _).2 (s.prepare_admits i)
  · exact (State.legal_finish_iff (.refused .badOperand) s).2 trivial

/-! ### Other key bytes -/

/-- The state with other bytes in `KEY`. -/
def State.withKey (k : Vector Byte 32) (s : State) : State := { s with key := k }

theorem State.withKey_finish (k : Vector Byte 32) (o : OpOutcome) (s : State) :
    (s.withKey k).finish o = (s.finish o).withKey k := by
  cases o <;> rfl

/-- SETKEY writes all of `KEY`; the other instructions leave its bytes. -/
theorem State.withKey_prepare (k : Vector Byte 32) (i : Instr) (s : State) :
    (s.withKey k).prepare i = s.prepare i ∨ (s.withKey k).prepare i = (s.prepare i).withKey k := by
  cases i with
  | setkey b =>
    cases hp : s.phase with
    | config => exact .inl (by simp [State.prepare, State.withKey, State.installKey, hp])
    | run => exact .inr (by simp [State.prepare, State.withKey, hp])
  | _ => exact .inr rfl

theorem State.secret?_withKey {s : State} (h : s.keyValid = false) (k : Vector Byte 32) :
    (s.withKey k).secret? = s.secret? := by
  rw [State.secret?_of_invalid h, State.secret?_of_invalid (s := s.withKey k) h]

theorem State.withKey_perform (k : Vector Byte 32) (i : Instr) {s : State} (h : s.keyValid = false) :
    (s.withKey k).perform i = s.perform i ∨ (s.withKey k).perform i = (s.perform i).withKey k := by
  simp only [State.perform, State.secret?_withKey h]
  obtain hw | hw := s.withKey_prepare k i
  · exact .inl (by rw [hw]; rfl)
  · exact .inr (by rw [hw, State.withKey_finish]; rfl)

/-- While no secret is configured an instruction does the same whatever bytes `KEY` holds, and keeps them or writes
them all (R21). -/
theorem exec_withKey (k : Vector Byte 32) (i : Instr) {s : State} (h : s.keyValid = false) :
    ∃ t, exec i s = .next t ∧ (exec i (s.withKey k) = .next t ∨ exec i (s.withKey k) = .next (t.withKey k)) := by
  obtain ⟨hok, he⟩ | ⟨hbad, he⟩ := exec_cases i s
  · refine ⟨_, he, ?_⟩
    rw [exec_of_ok (s := s.withKey k) hok]
    exact (s.withKey_perform k i h).imp (congrArg _) (congrArg _)
  · exact ⟨_, he, .inr (exec_of_bad (s := s.withKey k) hbad)⟩

theorem step_of_take_run {s t : State} {i : Instr} (h : s.take = .run i t) : step s = exec i t := by
  rw [step, h]

/-- A step takes the same item whatever bytes `KEY` holds. -/
theorem step_withKey (k : Vector Byte 32) {s : State} (h : s.keyValid = false) :
    ∃ t, step s = .next t ∧ (step (s.withKey k) = .next t ∨ step (s.withKey k) = .next (t.withKey k)) := by
  obtain ⟨hi, hs⟩ | ⟨q, hi, hs⟩ | ⟨q, hi, hs⟩ | ⟨b, l, q, r, hi, hd, hs⟩ | ⟨b, l, q, i, rest, hi, hd, hs⟩
    | ⟨i, q, hi, hs⟩ | ⟨b, p, q, hi, hs⟩ := step_cases s
  · exact ⟨_, hs, .inr (by rw [step, State.take_nil (s := s.withKey k) hi])⟩
  · exact ⟨_, hs, .inl (by rw [step, State.take_reset (s := s.withKey k) hi]; rfl)⟩
  · exact ⟨_, hs, .inr (by rw [step, State.take_stream_end (s := s.withKey k) hi]; rfl)⟩
  · exact ⟨_, hs, .inr (by rw [step, State.take_stream_bad (s := s.withKey k) hi hd]; rfl)⟩
  · rw [hs, step_of_take_run (State.take_stream_ok (s := s.withKey k) hi hd)]
    exact exec_withKey k i (s := s.withInbox _) h
  · rw [hs, step_of_take_run (State.take_command (s := s.withKey k) hi)]
    exact exec_withKey k i (s := s.withInbox q) h
  · rw [hs, step_of_take_run (State.take_payload (s := s.withKey k) hi)]
    exact exec_withKey k _ (s := s.withInbox q) h

/-! ### The settled obligations -/

/-- Settles O40 (R22): acceptance is the operand test, and only the preparation of an accepted instruction writes the
phase. -/
theorem phaseRule : Obligations.PhaseRule := by
  intro i s u hu
  obtain ⟨hok, he⟩ | ⟨hbad, he⟩ := exec_cases i s <;> rw [he] at hu <;> cases hu
  · have hwf : ¬malformed s.params i := operandsOk_iff.1 hok
    refine ⟨by cases hd : isDecodeOp i <;> simp [State.perform, hwf, hd], fun hset hst => ?_⟩
    obtain ⟨k, rfl⟩ := isSetkey_iff.1 hset
    exact (s.perform_setkey_status k).1 hst
  · have hmal : malformed s.params i := by simpa [hbad] using operandsOk_iff (ps := s.params) (i := i)
    exact ⟨by simp [hmal], fun _ hst => by simp at hst⟩

/-- Settles O41 (R32): the outcome and the context left are those of `acceptedOutcome` and `State.prepare`, which read
the parameters, the secret and the phase. -/
theorem outcomeIsAFunctionOfContext : Obligations.OutcomeIsAFunctionOfContext := by
  intro i s s' hps hv hk hp
  obtain ⟨hok, he⟩ | ⟨hbad, he⟩ := exec_cases i s
  · obtain ⟨hv', hk'⟩ := State.prepare_secret_congr i hv hk hp
    refine ⟨_, _, he, exec_of_ok (hps ▸ hok), ?_⟩
    simp [State.perform, hps, hp, State.secret?_congr hv hk, hv', hk']
  · refine ⟨_, _, he, exec_of_bad (hps ▸ hbad), ?_⟩
    simp [hv, hk, hp]

/-- Settles O46 (R22, R23, R254, R270 to R272), by what a step can be: an idle step and the end of a stream keep the
registers, and every other step writes registers in agreement. -/
theorem legalKeptByStep : Obligations.LegalKeptByStep := by
  intro s t hs ht
  obtain ⟨-, h⟩ | ⟨q, -, h⟩ | ⟨q, -, h⟩ | ⟨b, l, q, r, -, -, h⟩ | ⟨b, l, q, i, rest, -, -, h⟩ | ⟨i, q, -, h⟩
    | ⟨hd, p, q, -, h⟩ := step_cases s <;> rw [h] at ht
  · cases ht; exact hs
  · cases ht; rfl
  · cases ht; exact hs
  · cases ht
    exact (State.legal_finish_iff (.refused (rejectReason r)) _).2 (by cases r <;> trivial)
  · exact exec_legal ht
  · exact exec_legal ht
  · exact exec_legal ht

/-- Settles O43 (R21, R301): `step_withKey`, with the changed key written out. -/
theorem keyUnreadWhileInvalid : Obligations.KeyUnreadWhileInvalid :=
  fun _ k h => step_withKey k h

/-- Settles O47 (R34), by evaluation of the one closed state that the statement names. -/
theorem legalAfterReset : Obligations.LegalAfterReset := rfl

end Sys2Proof.Machine
end

section
/-! PROOFS. What every instruction keeps in phase `RUN` (R57, R58): the parameters, the secret and the phase, which are
all that the outcome of a later instruction reads. -/

namespace Sys2Proof.Machine

theorem State.enterRun_of_run {s : State} (h : s.phase = .run) : s.enterRun = s := by
  rw [State.enterRun, ← h]

/-- In `RUN` an accepted instruction leaves the whole context: SETKEY is refused, and a decode operation is in `RUN`
already. -/
theorem State.prepare_of_run (i : Instr) {s : State} (h : s.phase = .run) : s.prepare i = s := by
  obtain ⟨-, hr⟩ | ⟨-, hr⟩ | ⟨k, -, hc, -⟩ := s.prepare_cases i
  · rw [hr, State.enterRun_of_run h]
  · exact hr
  · simp [h] at hc

/-- In `RUN` an instruction writes the result registers and nothing else of what a later one reads. -/
theorem exec_run_frame (i : Instr) {s : State} (h : s.phase = .run) :
    ∃ u, exec i s = .next u ∧ u.phase = .run ∧ sameContext s u := by
  obtain ⟨-, he⟩ | ⟨-, he⟩ := exec_cases i s
  · refine ⟨_, he, ?_⟩
    simp [State.perform, State.prepare_of_run i h, h, sameContext]
  · refine ⟨_, he, ?_⟩
    simp [h, sameContext]

/-- Settles O42 (R57, R58): the earlier instruction leaves the context as it was (`exec_run_frame`), and the outcome of
the later one is a function of that context (O41). -/
theorem orderDoesNotMatterInRun : Obligations.OrderDoesNotMatterInRun := by
  intro i j s h
  obtain ⟨u, hu, hph, hps, hv, hk, -⟩ := exec_run_frame i h
  obtain ⟨w, v, hw, hvx, hout, -⟩ := outcomeIsAFunctionOfContext j s u hps hv hk (hph.trans h.symm)
  exact ⟨u, v, w, hu, hvx, hw, hout⟩

end Sys2Proof.Machine
end

section
/-! PROOFS. The command stream CS1 (R93, R94). Each reader takes exactly what its writer puts, and so the decoder takes a
command off a stream exactly where the stream begins with that command's bytes (`decodeCommand_eq_ok`). The two round
trips are its two directions; that a command cut short is rejected follows from it, since a decoding does not change
when more bytes follow. -/

namespace Sys2Proof.Machine

/-! ### Little-endian fields (R52) -/

theorem le16_bytes16 (v : Half) : le16 (bytes16 v) = v := by
  simp only [le16, bytes16, low, high, List.getD_cons_zero, List.getD_cons_succ]
  ext i hi
  by_cases h : i < 8
  · simp [h, BitVec.getLsbD_eq_getElem hi]
  · have hsub : i - 8 < 8 := by omega
    have hadd : 8 + (i - 8) = i := by omega
    simp [h, hsub, hadd, BitVec.getLsbD_eq_getElem hi]

theorem bytes16_le16 (a b : Byte) : bytes16 (le16 [a, b]) = [a, b] := by
  have hlow : low (le16 [a, b]) = a := by
    ext i hi
    simp [low, le16]
  have hhigh : high (le16 [a, b]) = b := by
    ext i hi
    have h8 : 8 + i < 16 := by omega
    have h16 : i < 16 := by omega
    simp [high, le16, h8, h16, BitVec.getLsbD_eq_getElem hi]
  rw [bytes16, hlow, hhigh]

/-! ### The lengths that CS1 can carry (R94) -/

theorem wfBytes_iff {x : Bytes} : wfBytes x = true ↔ x.length < 2 ^ 16 :=
  decide_eq_true_iff.trans Nat.lt_succ_iff.symm

theorem wfPath_iff {x : Bytes} : wfPath x = true ↔ x.length < 2 ^ 8 :=
  decide_eq_true_iff.trans Nat.lt_succ_iff.symm

/-- A length that a `u16` field can carry is read back. -/
theorem le16_length {x : Bytes} (h : wfBytes x = true) :
    (le16 (bytes16 (BitVec.ofNat 16 x.length))).toNat = x.length := by
  rw [le16_bytes16, BitVec.toNat_ofNat, Nat.mod_eq_of_lt (wfBytes_iff.1 h)]

/-! ### The readers and their writers (R94) -/

theorem getByte_eq_some {b rest : Bytes} {x : Byte} : getByte b = some (x, rest) ↔ b = x :: rest := by
  cases b <;> simp [getByte]

/-- A `bytes` operand is taken exactly where its length and its bytes stand. -/
theorem getString_eq_some {b x rest : Bytes} :
    getString b = some (x, rest) ↔ wfBytes x = true ∧ b = putString x ++ rest := by
  constructor
  · intro h
    unfold getString at h
    split at h
    · cases h
    next n t hn =>
      obtain ⟨rfl, hlen⟩ := getBytes_eq_some.1 hn
      obtain ⟨rfl, hx⟩ := getBytes_eq_some.1 h
      obtain ⟨n0, n1, rfl⟩ := List.length_eq_two.1 hlen
      refine ⟨wfBytes_iff.2 (hx ▸ (le16 [n0, n1]).isLt), ?_⟩
      rw [putString, hx, BitVec.ofNat_toNat, BitVec.setWidth_eq, bytes16_le16, List.append_assoc]
  · rintro ⟨hx, rfl⟩
    have hn : getBytes 2 (putString x ++ rest) = some (bytes16 (BitVec.ofNat 16 x.length), x ++ rest) :=
      getBytes_eq_some.2 ⟨List.append_assoc .., rfl⟩
    simp only [getString, hn]
    exact getBytes_eq_some.2 ⟨rfl, (le16_length hx).symm⟩

/-- A path is taken exactly where its length and its bytes stand. -/
theorem getPath_eq_some {b x rest : Bytes} :
    getPath b = some (x, rest) ↔ wfPath x = true ∧ b = putPath x ++ rest := by
  constructor
  · intro h
    unfold getPath at h
    split at h
    · cases h
    next n t hn =>
      obtain rfl := getByte_eq_some.1 hn
      obtain ⟨rfl, hx⟩ := getBytes_eq_some.1 h
      refine ⟨wfPath_iff.2 (hx ▸ n.isLt), ?_⟩
      rw [putPath, hx, BitVec.ofNat_toNat, BitVec.setWidth_eq, List.cons_append]
  · rintro ⟨hx, rfl⟩
    exact getBytes_eq_some.2 ⟨rfl, by rw [BitVec.toNat_ofNat, Nat.mod_eq_of_lt (wfPath_iff.1 hx)]⟩

/-- The reader's test of `hi` is the one of a well-formed command. -/
theorem and_two_ne_zero_iff (hi : Byte) : hi &&& 2 ≠ 0 ↔ hi.getLsbD 1 = true := by
  revert hi; decide

/-- The transport codes are taken exactly where `hi` calls for them and their bytes stand. -/
theorem getTc_eq_some {hi : Byte} {b rest : Bytes} {tc : Option (Half × Half)} :
    getTc hi b = some (tc, rest) ↔ wfTc hi tc = true ∧ b = putTc tc ++ rest := by
  unfold getTc
  simp only [and_two_ne_zero_iff, wfTc, beq_iff_eq]
  cases hhi : hi.getLsbD 1 with
  | false => cases tc <;> simp [putTc, eq_comm]
  | true =>
    simp only [if_true]
    constructor
    · intro h
      split at h
      · cases h
      next t r ht =>
        obtain ⟨rfl, hlen⟩ := getBytes_eq_some.1 ht
        obtain ⟨t0, t1, t2, t3, rfl⟩ : ∃ t0 t1 t2 t3, t = [t0, t1, t2, t3] := by
          match t, hlen with
          | [t0, t1, t2, t3], _ => exact ⟨t0, t1, t2, t3, rfl⟩
        cases h
        exact ⟨rfl, by simp [putTc, slice, bytes16_le16]⟩
    · rintro ⟨htc, rfl⟩
      obtain ⟨⟨c0, c1⟩, rfl⟩ := Option.isSome_iff_exists.1 htc
      have ht : getBytes 4 (putTc (some (c0, c1)) ++ rest) = some (bytes16 c0 ++ bytes16 c1, rest) :=
        getBytes_eq_some.2 ⟨rfl, rfl⟩
      rw [ht]
      have h0 : slice (bytes16 c0 ++ bytes16 c1) 0 2 = bytes16 c0 := rfl
      have h1 : slice (bytes16 c0 ++ bytes16 c1) 2 4 = bytes16 c1 := rfl
      simp only [h0, h1, le16_bytes16]

theorem getWith_eq_some {mk : Bytes → Instr} {b rest : Bytes} {i : Instr} :
    getWith mk b = some (i, rest) ↔ ∃ x, wfBytes x = true ∧ i = mk x ∧ b = putString x ++ rest := by
  constructor
  · intro h
    unfold getWith at h
    split at h
    · cases h
    next x t hx =>
      obtain ⟨hwf, rfl⟩ := getString_eq_some.1 hx
      cases h
      exact ⟨x, hwf, rfl, rfl⟩
  · rintro ⟨x, hwf, rfl, rfl⟩
    rw [getWith, getString_eq_some.2 ⟨hwf, rfl⟩]

theorem getPldecode_eq_some {b rest : Bytes} {i : Instr} :
    getPldecode b = some (i, rest) ↔
      ∃ pt x, wfBytes x = true ∧ i = .pldecode pt x ∧ b = pt :: putString x ++ rest := by
  constructor
  · intro h
    unfold getPldecode at h
    split at h
    · cases h
    next pt t hpt =>
      obtain rfl := getByte_eq_some.1 hpt
      obtain ⟨x, hx, rfl, rfl⟩ := getWith_eq_some.1 h
      exact ⟨pt, x, hx, rfl, rfl⟩
  · rintro ⟨pt, x, hx, rfl, rfl⟩
    exact getWith_eq_some.2 ⟨x, hx, rfl, rfl⟩

/-- The operands of PENCODE and TXFRAME. -/
theorem getPacket_eq_some {mk : Byte → Byte → Bytes → Bytes → Instr} {b rest : Bytes} {i : Instr} :
    getPacket mk b = some (i, rest) ↔
      ∃ rt pt path x, wfPath path = true ∧ wfBytes x = true ∧ i = mk rt pt path x
        ∧ b = rt :: pt :: (putPath path ++ putString x) ++ rest := by
  constructor
  · intro h
    unfold getPacket at h
    split at h
    · cases h
    next rt t hrt =>
      obtain rfl := getByte_eq_some.1 hrt
      split at h
      · cases h
      next pt t hpt =>
        obtain rfl := getByte_eq_some.1 hpt
        split at h
        · cases h
        next path t hpath =>
          obtain ⟨hp, rfl⟩ := getPath_eq_some.1 hpath
          obtain ⟨x, hx, rfl, rfl⟩ := getWith_eq_some.1 h
          exact ⟨rt, pt, path, x, hp, hx, rfl, by simp⟩
  · rintro ⟨rt, pt, path, x, hp, hx, rfl, rfl⟩
    have hpath : getPath (putPath path ++ putString x ++ rest) = some (path, putString x ++ rest) :=
      getPath_eq_some.2 ⟨hp, List.append_assoc ..⟩
    simp only [getPacket, getByte, List.cons_append, hpath]
    exact getWith_eq_some.2 ⟨x, hx, rfl, rfl⟩

/-- The operands of PENCODEX. -/
theorem getPacketX_eq_some {b rest : Bytes} {i : Instr} :
    getPacketX b = some (i, rest) ↔
      ∃ rt pt hi tc path x, wfTc hi tc = true ∧ wfPath path = true ∧ wfBytes x = true
        ∧ i = .pencodex rt pt hi tc path x
        ∧ b = rt :: pt :: hi :: (putTc tc ++ (putPath path ++ putString x)) ++ rest := by
  constructor
  · intro h
    unfold getPacketX at h
    split at h
    · cases h
    next rt t hrt =>
      obtain rfl := getByte_eq_some.1 hrt
      split at h
      · cases h
      next pt t hpt =>
        obtain rfl := getByte_eq_some.1 hpt
        split at h
        · cases h
        next hi t hhi =>
          obtain rfl := getByte_eq_some.1 hhi
          split at h
          · cases h
          next tc t hget =>
            obtain ⟨htc, rfl⟩ := getTc_eq_some.1 hget
            split at h
            · cases h
            next path t hpath =>
              obtain ⟨hp, rfl⟩ := getPath_eq_some.1 hpath
              obtain ⟨x, hx, rfl, rfl⟩ := getWith_eq_some.1 h
              exact ⟨rt, pt, hi, tc, path, x, htc, hp, hx, rfl, by simp⟩
  · rintro ⟨rt, pt, hi, tc, path, x, htc, hp, hx, rfl, rfl⟩
    have hgetTc : getTc hi (putTc tc ++ (putPath path ++ putString x) ++ rest)
        = some (tc, putPath path ++ putString x ++ rest) :=
      getTc_eq_some.2 ⟨htc, List.append_assoc ..⟩
    have hpath : getPath (putPath path ++ putString x ++ rest) = some (path, putString x ++ rest) :=
      getPath_eq_some.2 ⟨hp, List.append_assoc ..⟩
    simp only [getPacketX, getByte, List.cons_append, hgetTc, hpath]
    exact getWith_eq_some.2 ⟨x, hx, rfl, rfl⟩

/-! ### A command and its bytes -/

/-- The commands that CS1 can carry: every byte string fits its length field, and the transport codes go with bit 1 of
`hi`. A well-formed command is one of them; one whose `u4` or `u2` is out of range is too (R94, R256). -/
def fitsCs1 : Instr → Bool
  | .nop => true
  | .cksum x | .unwrap x | .wrap x | .pdecode x | .macdec x | .rxframe x | .setkey x | .pldecode _ x => wfBytes x
  | .pencode _ _ path x | .txframe _ _ path x => wfPath path && wfBytes x
  | .pencodex _ _ hi tc path x => wfTc hi tc && wfPath path && wfBytes x
  | .req _ _ _ | .response _ _ _ | .txtMsg _ _ _ | .ack _ _ _ | .advert _ _ _ | .grpTxt _ _ _ | .grpData _ _ _
  | .unknown7 _ _ _ | .path _ _ _ | .unknown9 _ _ _ | .unknownA _ _ _ | .control _ _ _ | .unknownC _ _ _
  | .unknownD _ _ _ | .unknownE _ _ _ | .rawCustom _ _ _ => false

theorem fitsCs1_of_wf {i : Instr} (h : i.wf = true) (hc : i.isCommand = true) : fitsCs1 i = true := by
  cases i with
  | nop | cksum | unwrap | wrap | pdecode | macdec | rxframe | setkey => exact h
  | pencode | pencodex | pldecode | txframe => simp_all [Instr.wf, fitsCs1]
  | _ => cases hc

theorem isCommand_of_fitsCs1 {i : Instr} (h : fitsCs1 i = true) : i.isCommand = true := by
  cases i with
  | nop | cksum | unwrap | wrap | pdecode | pencode | pencodex | macdec | pldecode | rxframe | txframe | setkey => rfl
  | _ => cases h

theorem encode_ne_nil (i : Instr) : encode i ≠ [] := by
  cases i <;> exact List.cons_ne_nil _ _

theorem decodeCommand_cons_eq_ok {op : Byte} {t rest : Bytes} {i : Instr} :
    decodeCommand (op :: t) = .ok (i, rest) ↔ getOperands op t = some (some (i, rest)) := by
  rw [decodeCommand]
  split <;> simp_all

/-- The operands of an encoded command are read back under its opcode. -/
theorem getOperands_of_encode {op : Byte} {t rest : Bytes} {i : Instr} (hf : fitsCs1 i = true)
    (h : op :: t = encode i ++ rest) : getOperands op t = some (some (i, rest)) := by
  cases i with
  | nop => cases h; rfl
  | cksum x | unwrap x | wrap x | pdecode x | macdec x | rxframe x | setkey x =>
    cases h
    exact congrArg some (getWith_eq_some.2 ⟨x, hf, rfl, rfl⟩)
  | pldecode pt x =>
    cases h
    exact congrArg some (getPldecode_eq_some.2 ⟨pt, x, hf, rfl, rfl⟩)
  | pencode rt pt path x | txframe rt pt path x =>
    cases h
    obtain ⟨hp, hx⟩ : wfPath path = true ∧ wfBytes x = true := by simpa [fitsCs1] using hf
    exact congrArg some (getPacket_eq_some.2 ⟨rt, pt, path, x, hp, hx, rfl, rfl⟩)
  | pencodex rt pt hi tc path x =>
    cases h
    obtain ⟨⟨htc, hp⟩, hx⟩ : (wfTc hi tc = true ∧ wfPath path = true) ∧ wfBytes x = true := by simpa [fitsCs1] using hf
    exact congrArg some (getPacketX_eq_some.2 ⟨rt, pt, hi, tc, path, x, htc, hp, hx, rfl, rfl⟩)
  | _ => cases hf

/-- The operands of a command with one `bytes` operand. -/
theorem encode_of_getWith {op : Byte} {mk : Bytes → Instr} {t rest : Bytes} {i : Instr}
    (hfits : ∀ x, fitsCs1 (mk x) = wfBytes x) (henc : ∀ x, encode (mk x) = op :: putString x)
    (h : getWith mk t = some (i, rest)) : fitsCs1 i = true ∧ op :: t = encode i ++ rest := by
  obtain ⟨x, hx, rfl, rfl⟩ := getWith_eq_some.1 h
  exact ⟨by rw [hfits, hx], by rw [henc]; rfl⟩

/-- The operands of PENCODE and TXFRAME. -/
theorem encode_of_getPacket {op : Byte} {mk : Byte → Byte → Bytes → Bytes → Instr} {t rest : Bytes} {i : Instr}
    (hfits : ∀ rt pt path x, fitsCs1 (mk rt pt path x) = (wfPath path && wfBytes x))
    (henc : ∀ rt pt path x, encode (mk rt pt path x) = op :: rt :: pt :: (putPath path ++ putString x))
    (h : getPacket mk t = some (i, rest)) : fitsCs1 i = true ∧ op :: t = encode i ++ rest := by
  obtain ⟨rt, pt, path, x, hp, hx, rfl, rfl⟩ := getPacket_eq_some.1 h
  exact ⟨by rw [hfits, hp, hx, Bool.and_self], by rw [henc]; rfl⟩

/-- What is read under an opcode is a command that begins with this opcode. -/
theorem encode_of_getOperands {op : Byte} {t rest : Bytes} {i : Instr} (h : getOperands op t = some (some (i, rest))) :
    fitsCs1 i = true ∧ op :: t = encode i ++ rest := by
  have hop : BitVec.ofNat 8 op.toNat = op := by simp
  rw [← hop]
  unfold getOperands at h
  generalize op.toNat = n at h ⊢
  split at h
  case h_1 => cases h; exact ⟨rfl, rfl⟩
  case h_2 | h_3 | h_4 | h_5 | h_8 | h_10 | h_12 =>
    exact encode_of_getWith (fun _ => rfl) (fun _ => rfl) (Option.some.inj h)
  case h_6 | h_11 => exact encode_of_getPacket (fun _ _ _ _ => rfl) (fun _ _ _ _ => rfl) (Option.some.inj h)
  case h_7 =>
    obtain ⟨rt, pt, hi, tc, path, x, htc, hp, hx, rfl, rfl⟩ := getPacketX_eq_some.1 (Option.some.inj h)
    exact ⟨by rw [fitsCs1, htc, hp, hx]; rfl, rfl⟩
  case h_9 =>
    obtain ⟨pt, x, hx, rfl, rfl⟩ := getPldecode_eq_some.1 (Option.some.inj h)
    exact ⟨hx, rfl⟩
  case h_13 => cases h

/-- The decoder takes a command off a stream exactly where the stream begins with the bytes of a command that CS1 can
carry. -/
theorem decodeCommand_eq_ok {b rest : Bytes} {i : Instr} :
    decodeCommand b = .ok (i, rest) ↔ fitsCs1 i = true ∧ b = encode i ++ rest := by
  cases b with
  | nil => simp [decodeCommand, encode_ne_nil]
  | cons op t =>
    rw [decodeCommand_cons_eq_ok]
    exact ⟨encode_of_getOperands, fun ⟨hf, h⟩ => getOperands_of_encode hf h⟩

/-! ### Bytes that are no command -/

/-- An opcode byte has no operands exactly when it is not assigned (R93, R255), whatever follows it. -/
theorem getOperands_eq_none {op : Byte} {t : Bytes} :
    getOperands op t = none ↔ ¬(op.toNat ≤ 0x0A ∨ op.toNat = 0x10) := by
  unfold getOperands
  split <;> simp_all
  omega

theorem decodeCommand_eq_unknownOpcode {op : Byte} {t : Bytes} :
    decodeCommand (op :: t) = .error .unknownOpcode ↔ ¬(op.toNat ≤ 0x0A ∨ op.toNat = 0x10) := by
  rw [← getOperands_eq_none (t := t), decodeCommand]
  split <;> simp_all

/-- What is rejected for its opcode is rejected so whatever follows. -/
theorem decodeCommand_append_unknownOpcode {b t : Bytes} (h : decodeCommand b = .error .unknownOpcode) :
    decodeCommand (b ++ t) = .error .unknownOpcode := by
  cases b with
  | nil => cases h
  | cons op b => exact decodeCommand_eq_unknownOpcode.2 (decodeCommand_eq_unknownOpcode.1 h)

/-- A command that decodes does so whatever follows. -/
theorem decodeCommand_append {b rest t : Bytes} {i : Instr} (h : decodeCommand b = .ok (i, rest)) :
    decodeCommand (b ++ t) = .ok (i, rest ++ t) := by
  obtain ⟨hf, rfl⟩ := decodeCommand_eq_ok.1 h
  exact decodeCommand_eq_ok.2 ⟨hf, List.append_assoc ..⟩

/-- A proper initial part of a command's bytes is cut short: any other answer would stand when the rest of the bytes
follow, and they are this one command. -/
theorem decodeCommand_take_encode {i : Instr} {n : Nat} (hf : fitsCs1 i = true) (hn : n < (encode i).length) :
    decodeCommand ((encode i).take n) = .error .cutShort := by
  have hwhole : decodeCommand ((encode i).take n ++ (encode i).drop n) = .ok (i, []) := by
    rw [List.take_append_drop]
    exact decodeCommand_eq_ok.2 ⟨hf, (List.append_nil _).symm⟩
  match h : decodeCommand ((encode i).take n) with
  | .error .cutShort => rfl
  | .error .unknownOpcode => cases (decodeCommand_append_unknownOpcode h).symm.trans hwhole
  | .ok (j, rest) =>
    have hsame : (j, rest ++ (encode i).drop n) = (i, []) :=
      Except.ok.inj ((decodeCommand_append h).symm.trans hwhole)
    have hdrop : (encode i).drop n = [] := (List.append_eq_nil_iff.1 (congrArg Prod.snd hsame)).2
    exact absurd (List.drop_eq_nil_iff.1 hdrop) (by omega)

/-! ### A step on a stream -/

theorem step_stream_ok {s : State} {b rest : Bytes} {i : Instr} {q : List HostItem}
    (h : s.inbox = .stream b :: q) (hd : decodeCommand b = .ok (i, rest)) :
    step s = exec i (s.withInbox (afterCommand rest q)) :=
  step_of_take_run (State.take_stream_ok h hd)

theorem step_stream_error {s : State} {b : Bytes} {r : CmdReject} {q : List HostItem}
    (h : s.inbox = .stream b :: q) (hne : b ≠ []) (hd : decodeCommand b = .error r) :
    step s = .next ((s.withInbox q).refuse (rejectReason r)) := by
  obtain ⟨op, t, rfl⟩ := List.exists_cons_of_ne_nil hne
  rw [step, State.take_stream_bad h hd]

/-! ### The settled obligations -/

/-- Settles O51 (R94): the direction of `decodeCommand_eq_ok` from bytes to command, for commands within CS1's ranges. -/
theorem decodeEncodedCommand : Obligations.DecodeEncodedCommand :=
  fun _ _ hwf hc => decodeCommand_eq_ok.2 ⟨fitsCs1_of_wf hwf hc, rfl⟩

/-- Settles O52 (R94): the other direction of `decodeCommand_eq_ok`. -/
theorem decodedCommandReencodes : Obligations.DecodedCommandReencodes := by
  intro b rest i h
  obtain ⟨hf, hb⟩ := decodeCommand_eq_ok.1 h
  exact ⟨hb, isCommand_of_fitsCs1 hf⟩

/-- Settles O54 (R94, R256): `decodeCommand_take_encode`, and the step that records the rejection. -/
theorem cutShortCommandRefused : Obligations.CutShortCommandRefused := by
  intro i n hwf hc hn
  have hcut := decodeCommand_take_encode (fitsCs1_of_wf hwf hc) hn
  refine ⟨hcut, fun s q hpos hs => ⟨_, step_stream_error hs ?_ hcut, rfl, rfl, rfl, rfl, rfl, rfl, rfl⟩⟩
  rw [Ne, ← List.length_eq_zero_iff, List.length_take]
  omega

/-- Settles O44 (R57, R93, R94), by what the block takes for each kind of item. -/
theorem stepRunsDecoded : Obligations.StepRunsDecoded := by
  refine ⟨fun s b rest i q hs hd => ?_, fun s i q hs => ?_, fun s h p q hs => ?_⟩
  · rw [step_stream_ok hs hd, afterCommand]
    cases rest <;> rfl
  · exact step_of_take_run (State.take_command hs)
  · exact step_of_take_run (State.take_payload hs)

end Sys2Proof.Machine
end

section
/-! PROOFS. A payload under its header byte (R82, R91, R210). The sixteen dispatch rows are gone through once, as the
entries of `hdrRows` by their code (`encode_hdrRow`, `exec_hdrRow`); what a header byte decodes to is the row of its
bits 5:2. -/

namespace Sys2Proof.Machine

/-! ### The header byte and its fields (R82, R141) -/

theorem hdrPayloadType_hdrByte (ver rt : BitVec 2) (code : BitVec 4) : hdrPayloadType (hdrByte ver code rt) = code := by
  revert ver rt code; decide

theorem hdrPayloadVersion_hdrByte (ver rt : BitVec 2) (code : BitVec 4) :
    hdrPayloadVersion (hdrByte ver code rt) = ver := by
  revert ver rt code; decide

theorem hdrRouteType_hdrByte (ver rt : BitVec 2) (code : BitVec 4) : hdrRouteType (hdrByte ver code rt) = rt := by
  revert ver rt code; decide

theorem hdrByte_fields (h : Byte) : hdrByte (hdrPayloadVersion h) (hdrPayloadType h) (hdrRouteType h) = h := by
  revert h; decide

/-- Bits 5:2 of the header as PLDECODE's operand: in range, and the code of the row. -/
theorem bits5to2 (h : Byte) :
    okU4 (BitVec.ofNat 8 (h.toNat / 4 % 16)) = true
      ∧ (BitVec.ofNat 8 (h.toNat / 4 % 16)).setWidth 4 = hdrPayloadType h := by
  revert h; decide

/-! ### The dispatch rows by their code -/

/-- A header byte built from fields decodes to the row of its code, with its free fields. -/
theorem decodeHeader_hdrByte (ver rt : BitVec 2) (code : BitVec 4) (p : Bytes) :
    decodeHeader (hdrByte ver code rt) p = hdrRows.get code.toFin ver rt p := by
  rw [decodeHeader, hdrPayloadType_hdrByte, hdrPayloadVersion_hdrByte, hdrRouteType_hdrByte]

/-- The rows stand in the order of their codes. -/
theorem encode_hdrRow (ver rt : BitVec 2) (code : BitVec 4) (p : Bytes) :
    encode (hdrRows.get code.toFin ver rt p) = hdrByte ver code rt :: p
      ∧ (hdrRows.get code.toFin ver rt p).isCommand = false := by
  obtain ⟨c, hc⟩ := code
  interval_cases c <;> exact ⟨rfl, rfl⟩

/-- A row decodes its payload as the type that the default table gives its code. -/
theorem exec_hdrRow (ver rt : BitVec 2) (code : BitVec 4) (p : Bytes) (s : State) :
    exec (hdrRows.get code.toFin ver rt p) s = .next (s.dispatchRow (ptypeOf Params.default code) code p) := by
  obtain ⟨c, hc⟩ := code
  interval_cases c <;> rfl

theorem ptypeOf_of_defaultTable {ps : Params} (h : ps.ptypeTable = Params.defaultTable) (code : BitVec 4) :
    ptypeOf ps code = ptypeOf Params.default code := by
  rw [ptypeOf, h]; rfl

/-- PLDECODE with an operand in range does what the dispatch row of its code does under the type that the table gives
the code. -/
theorem exec_pldecode_eq_dispatchRow {pt : Byte} (h : okU4 pt = true) (p : Bytes) (s : State) :
    exec (.pldecode pt p) s = .next (s.dispatchRow (ptypeOf s.params (pt.setWidth 4)) (pt.setWidth 4) p) := by
  have hexec : exec (.pldecode pt p) s = execPldecode pt p s := rfl
  rw [hexec, execPldecode, h, Bool.true_and, State.dispatchRow]

/-! ### The settled obligations -/

/-- Settles O53 (R82, R91): each row is the entry of `hdrRows` at its code, and the fields of a header byte determine
it. -/
theorem decodeEncodedHeader : Obligations.DecodeEncodedHeader := by
  refine ⟨fun i hc => ?_, fun h p => ?_⟩
  · cases i with
    | nop | cksum | unwrap | wrap | pdecode | pencode | pencodex | macdec | pldecode | rxframe | txframe | setkey =>
      cases hc
    | _ ver rt p => exact ⟨_, p, rfl, decodeHeader_hdrByte ver rt _ p⟩
  · have hrow := encode_hdrRow (hdrPayloadVersion h) (hdrRouteType h) (hdrPayloadType h) p
    rwa [hdrByte_fields] at hrow

/-- Settles O34 (R91, R210): both sides are the dispatch row of bits 5:2 under the default table's type. -/
theorem headerDispatchIsPldecode : Obligations.HeaderDispatchIsPldecode := by
  intro s h p htable
  obtain ⟨hok, hcode⟩ := bits5to2 h
  rw [exec_pldecode_eq_dispatchRow hok, hcode, ptypeOf_of_defaultTable htable, decodeHeader, exec_hdrRow]

/-- Settles O55 (R91, R93, R94): the three streams begin with the encodings of their commands, the header byte has the
fields of its row, and the two table words are evaluated. -/
theorem writtenWordsDecode : Obligations.WrittenWordsDecode :=
  ⟨decodeCommand_eq_ok.2 ⟨rfl, rfl⟩, decodeCommand_eq_ok.2 ⟨rfl, rfl⟩, decodeCommand_eq_ok.2 ⟨rfl, rfl⟩,
    decodeHeader_hdrByte 2 2 0x2 [0x41], rfl, rfl⟩

end Sys2Proof.Machine
end

section
/-! PROOFS. The checksum generator and its operation CKSUM (R120 to R123): how the sums take one byte, their closed
forms, the two bytes of a result, and the loop of R120 as a run. The three statements are read off these. -/

namespace Sys2Proof.Machine

/-! ### The two bytes of a half word (R10) -/

theorem low_toNat (v : Half) : (low v).toNat = v.toNat % 256 := by
  simp [low]

theorem high_toNat (v : Half) : (high v).toNat = v.toNat / 256 := by
  simp only [high, BitVec.toNat_setWidth, BitVec.toNat_ushiftRight, Nat.shiftRight_eq_div_pow]
  omega

/-! ### One byte (R120) -/

/-- A byte enters the sums modulo 255 only (R122 (b)). -/
theorem Sums.step_congr {b b' : Byte} (h : b.toNat ≡ b'.toNat [MOD 255]) (c : Sums) : c.step b = c.step b' := by
  have hsum : (c.sum1 + b.toNat) % Config.fletcherMod = (c.sum1 + b'.toNat) % Config.fletcherMod :=
    Nat.ModEq.add_left c.sum1 h
  rw [Sums.step, Sums.step, hsum]

/-- What a flip of one bit does to a byte is no multiple of 255 (R122 (e)). -/
theorem flipped_bit_not_modEq (b : Byte) {k : Nat} (hk : k < 8) : ¬ (b ^^^ (1 <<< k)).toNat ≡ b.toNat [MOD 255] := by
  interval_cases k <;> revert b <;> decide

/-! ### The closed forms (R121) -/

theorem closedSum1_lt (data : Bytes) : closedSum1 data < 255 := Nat.mod_lt _ (by decide)

theorem closedSum2_lt (data : Bytes) : closedSum2 data < 255 := Nat.mod_lt _ (by decide)

theorem closedSum1_singleton (b : Byte) : closedSum1 [b] = b.toNat % 255 := rfl

theorem closedSum2_singleton (b : Byte) : closedSum2 [b] = b.toNat % 255 := by
  simp [closedSum2, weightedSum]

theorem closedSum1_concat (data : Bytes) (b : Byte) :
    closedSum1 (data ++ [b]) = (closedSum1 data + b.toNat) % 255 := by
  simp [closedSum1]

/-- One byte more adds the sum of all bytes: every earlier byte gets one more weight. -/
theorem weightedSum_concat (data : Bytes) (b : Byte) :
    weightedSum (data ++ [b]) = weightedSum data + ((data ++ [b]).map BitVec.toNat).sum := by
  induction data with
  | nil => simp [weightedSum]
  | cons a t ih =>
    simp only [List.cons_append, weightedSum, ih, List.length_append, List.length_singleton, List.map_cons,
      List.sum_cons]
    ring

theorem closedSum2_concat (data : Bytes) (b : Byte) :
    closedSum2 (data ++ [b]) = (closedSum2 data + closedSum1 (data ++ [b])) % 255 := by
  rw [closedSum2, weightedSum_concat, Nat.add_mod]
  rfl

/-- Two bytes at one place whose values differ modulo 255 give different sums. -/
theorem closedSum1_replace_ne {b b' : Byte} (h : ¬ b.toNat ≡ b'.toNat [MOD 255]) (p q : Bytes) :
    closedSum1 (p ++ b :: q) ≠ closedSum1 (p ++ b' :: q) := by
  intro heq
  have hsum : (p.map BitVec.toNat).sum + (b.toNat + (q.map BitVec.toNat).sum)
      ≡ (p.map BitVec.toNat).sum + (b'.toNat + (q.map BitVec.toNat).sum) [MOD 255] := by
    simpa [closedSum1, Nat.ModEq] using heq
  exact h (Nat.ModEq.add_right_cancel' _ (Nat.ModEq.add_left_cancel' _ hsum))

/-- The running sums are the closed forms: both take one byte more in the same way. -/
theorem Sums.start_run (data : Bytes) : Sums.start.run data = ⟨closedSum1 data, closedSum2 data⟩ := by
  induction data using List.reverseRecOn with
  | nil => rfl
  | append_singleton data b ih =>
    rw [Sums.run_append, ih, closedSum2_concat, closedSum1_concat]
    rfl

/-! ### The result (R24, R121) -/

/-- The shift and the OR do not overlap. -/
theorem Sums.result_toNat {c : Sums} (h : c.sum1 < 255 ∧ c.sum2 < 255) :
    c.result.toNat = 256 * c.sum2 + c.sum1 := by
  obtain ⟨h1, h2⟩ := h
  have hor : c.sum2 <<< 8 ||| c.sum1 = c.sum2 <<< 8 + c.sum1 := (Nat.shiftLeft_add_eq_or_of_lt (by omega) _).symm
  simp only [Sums.result, BitVec.toNat_or, BitVec.toNat_shiftLeft, BitVec.toNat_ofNat]
  rw [Nat.mod_eq_of_lt (a := c.sum1) (by omega), Nat.mod_eq_of_lt (a := c.sum2) (by omega),
    Nat.mod_eq_of_lt (by rw [Nat.shiftLeft_eq]; omega), hor, Nat.shiftLeft_eq, Nat.mul_comm]

theorem fletcher16_toNat (data : Bytes) : (fletcher16 data).toNat = 256 * closedSum2 data + closedSum1 data := by
  rw [fletcher16, Sums.start_run]
  exact Sums.result_toNat ⟨closedSum1_lt data, closedSum2_lt data⟩

theorem low_fletcher16_toNat (data : Bytes) : (low (fletcher16 data)).toNat = closedSum1 data := by
  have h1 := closedSum1_lt data
  rw [low_toNat, fletcher16_toNat]
  omega

theorem high_fletcher16_toNat (data : Bytes) : (high (fletcher16 data)).toNat = closedSum2 data := by
  have h1 := closedSum1_lt data
  rw [high_toNat, fletcher16_toNat]
  omega

/-- No byte of a result is `0xFF` (R121). -/
theorem fletcher16_bytes_ne (data : Bytes) : low (fletcher16 data) ≠ 0xFF ∧ high (fletcher16 data) ≠ 0xFF := by
  refine ⟨fun h => ?_, fun h => ?_⟩
  · have hlow := low_fletcher16_toNat data
    rw [h] at hlow
    exact (closedSum1_lt data).ne' hlow
  · have hhigh := high_fletcher16_toNat data
    rw [h] at hhigh
    exact (closedSum2_lt data).ne' hhigh

/-- A result is known by its two sums. -/
theorem fletcher16_eq_iff {data : Bytes} {v : Half} :
    fletcher16 data = v ↔ closedSum1 data = (low v).toNat ∧ closedSum2 data = (high v).toNat := by
  refine ⟨?_, fun ⟨h1, h2⟩ => BitVec.eq_of_toNat_eq ?_⟩
  · rintro rfl
    exact ⟨(low_fletcher16_toNat data).symm, (high_fletcher16_toNat data).symm⟩
  · rw [fletcher16_toNat, h1, h2, low_toNat, high_toNat]
    omega

/-- Two bytes reach any two sums: `a + b` and `2a + b` are solved for `a` and `b` modulo 255 (R122 (g)). -/
theorem exists_closedSums {s1 s2 : Nat} (h1 : s1 < 255) (h2 : s2 < 255) :
    ∃ data, closedSum1 data = s1 ∧ closedSum2 data = s2 := by
  have htoNat (n : Nat) : (BitVec.ofNat 8 (n % 255)).toNat = n % 255 := by
    rw [BitVec.toNat_ofNat]
    omega
  refine ⟨[BitVec.ofNat 8 ((s2 + 255 - s1) % 255)] ++ [BitVec.ofNat 8 ((2 * s1 + 255 - s2) % 255)], ?_⟩
  rw [closedSum2_concat, closedSum1_concat, closedSum2_singleton, closedSum1_singleton, htoNat, htoNat]
  omega

/-! ### Corner cases (R122) -/

/-- Bytes that agree modulo 255 can replace each other (R122 (b)). -/
theorem fletcher16_replace {b b' : Byte} (h : b.toNat ≡ b'.toNat [MOD 255]) (p q : Bytes) :
    fletcher16 (p ++ b :: q) = fletcher16 (p ++ b' :: q) := by
  rw [fletcher16, fletcher16, Sums.run_append, Sums.run_append, Sums.run_cons, Sums.run_cons, Sums.step_congr h]

/-- An appended zero adds `SUM1` to `SUM2` (R122 (c)). -/
theorem fletcher16_concat_zero_ne {data : Bytes} (h : closedSum1 data ≠ 0) :
    fletcher16 (data ++ [0x00]) ≠ fletcher16 data := by
  intro heq
  have h1 := closedSum1_lt data
  have h2 := closedSum2_lt data
  have hzero : (0x00 : Byte).toNat = 0 := rfl
  have hsame : closedSum2 (data ++ [0x00]) = closedSum2 data := by
    rw [← high_fletcher16_toNat, heq, high_fletcher16_toNat]
  rw [closedSum2_concat, closedSum1_concat, hzero] at hsame
  omega

theorem fletcher16_singleton_toNat (b : Byte) : (fletcher16 [b]).toNat = 0x0101 * (b.toNat % 255) := by
  rw [fletcher16_toNat, closedSum1_singleton, closedSum2_singleton]
  omega

/-- A flipped bit changes `SUM1` (R122 (e)). -/
theorem fletcher16_flipped_bit_ne (b : Byte) {k : Nat} (hk : k < 8) (p q : Bytes) :
    fletcher16 (p ++ (b ^^^ (1 <<< k)) :: q) ≠ fletcher16 (p ++ b :: q) := by
  intro heq
  refine closedSum1_replace_ne (flipped_bit_not_modEq b hk) p q ?_
  rw [← low_fletcher16_toNat, heq, low_fletcher16_toNat]

/-- The results are the half words with no byte `0xFF` (R122 (g)). -/
theorem exists_fletcher16_eq_iff {v : Half} : (∃ data, fletcher16 data = v) ↔ (low v ≠ 0xFF ∧ high v ≠ 0xFF) := by
  constructor
  · rintro ⟨data, rfl⟩
    exact fletcher16_bytes_ne data
  · rintro ⟨hlow, hhigh⟩
    have h1 : (low v).toNat < 255 := by bv_omega
    have h2 : (high v).toNat < 255 := by bv_omega
    obtain ⟨data, hdata⟩ := exists_closedSums h1 h2
    exact ⟨data, fletcher16_eq_iff.2 hdata⟩

/-! ### The loop (R120) -/

/-- Sequences that follow the rule's loop from the sums `c` end in the sums after the data. -/
theorem Sums.run_eq_of_loop (data : Bytes) (sum1 sum2 : Nat → Nat)
    (hloop : ∀ i, i < data.length →
      sum1 (i + 1) = (sum1 i + (data.getD i 0).toNat) % 255 ∧ sum2 (i + 1) = (sum2 i + sum1 (i + 1)) % 255) :
    Sums.run ⟨sum1 0, sum2 0⟩ data = ⟨sum1 data.length, sum2 data.length⟩ := by
  induction data generalizing sum1 sum2 with
  | nil => rfl
  | cons b t ih =>
    have hfirst : Sums.step ⟨sum1 0, sum2 0⟩ b = ⟨sum1 1, sum2 1⟩ := by
      obtain ⟨hs1, hs2⟩ := hloop 0 (Nat.succ_pos _)
      rw [hs2, hs1]
      rfl
    rw [Sums.run_cons, hfirst]
    exact ih (fun i => sum1 (i + 1)) (fun i => sum2 (i + 1)) fun i hi => hloop (i + 1) (Nat.succ_lt_succ hi)

/-- The result as the number that R120 returns, `(SUM2 << 8) | SUM1` without overlap. -/
theorem fletcher16_eq_ofNat (data : Bytes) :
    fletcher16 data = BitVec.ofNat 16 (closedSum2 data * 2 ^ 8 + closedSum1 data) := by
  have hvalue : closedSum2 data * 2 ^ 8 + closedSum1 data = (fletcher16 data).toNat := by
    rw [fletcher16_toNat]
    omega
  rw [hvalue, BitVec.ofNat_toNat, BitVec.setWidth_eq]

/-! ### The settled obligations -/

/-- Settles O1 (R121): the closed forms of the running sums, the value of the result and its two bytes. -/
theorem fletcherArithmetic : Obligations.FletcherArithmetic := by
  intro data
  have h1 := closedSum1_lt data
  have h2 := closedSum2_lt data
  refine ⟨by rw [Sums.start_run], by rw [Sums.start_run], by omega, by omega, fun b => ⟨?_, ?_, ?_, ?_⟩,
    fletcher16_toNat data, fletcher16_bytes_ne data⟩
  · have hb := b.isLt
    omega
  · omega
  · exact closedSum1_concat data b
  · exact closedSum2_concat data b

/-- Settles O2 (R120): an accepted CKSUM writes `fletcher16`, and the sequences of the loop end in its sums. -/
theorem cksumComputesLoop : Obligations.CksumComputesLoop := by
  intro s data sum1 sum2 hok h1 h2 hloop
  have hrun : (⟨closedSum1 data, closedSum2 data⟩ : Sums) = ⟨sum1 data.length, sum2 data.length⟩ := by
    rw [← Sums.start_run, ← Sums.run_eq_of_loop data sum1 sum2 hloop, h1, h2]
    rfl
  obtain ⟨hs1, hs2⟩ := Sums.mk.inj hrun
  rw [← hs1, ← hs2, ← fletcher16_eq_ofNat]
  exact exec_of_ok hok

/-- Settles O3 (R122): the two equalities take the same steps, the other clauses are read off the closed forms. -/
theorem fletcherCornerCases : Obligations.FletcherCornerCases :=
  ⟨rfl, fletcher16_replace (by decide), fun _ => rfl, fun _ hd => fletcher16_concat_zero_ne hd,
    fletcher16_singleton_toNat, fun p q b _ hk => fletcher16_flipped_bit_ne b hk p q, by decide, by decide,
    fun _ => exists_fletcher16_eq_iff⟩

end Sys2Proof.Machine
end

section
/-! PROOFS. The frame envelope and its operations UNWRAP and WRAP (R130 to R132): which four bytes stand before a body,
that a frame unwraps to a body exactly where it is that body wrapped (`unwrap_eq_ok_iff_eq_wrap`), and how UNWRAP ends
in each case. -/

namespace Sys2Proof.Machine

/-! ### Two-byte fields (R10) -/

theorem low_le16 (a b : Byte) : low (le16 [a, b]) = a := (List.cons.inj (bytes16_le16 a b)).1

theorem high_le16 (a b : Byte) : high (le16 [a, b]) = b :=
  (List.cons.inj (List.cons.inj (bytes16_le16 a b)).2).1

/-- The two byte orders differ in the order of the bytes only. -/
theorem be16_eq_le16 (a b : Byte) : be16 [a, b] = le16 [b, a] := BitVec.or_comm _ _

/-- The magic is compared as two bytes in order (R133 (c)). -/
theorem be16_eq_magic_iff {a b : Byte} : be16 [a, b] = magic ↔ a = 0xC0 ∧ b = 0x3E := by
  constructor
  · intro h
    rw [magic, be16_eq_le16, be16_eq_le16] at h
    constructor
    · rw [← high_le16 b a, h, high_le16]
      rfl
    · rw [← low_le16 b a, h, low_le16]
      rfl
  · rintro ⟨rfl, rfl⟩
    rfl

/-! ### The checksum field (R80, R130) -/

/-- The field holds `SUM1`, then `SUM2`. -/
theorem le16_eq_fletcher16_iff {a b : Byte} {body : Bytes} :
    le16 [a, b] = fletcher16 body ↔ a.toNat = closedSum1 body ∧ b.toNat = closedSum2 body := by
  rw [eq_comm, fletcher16_eq_iff, low_le16, high_le16, eq_comm (a := closedSum1 body),
    eq_comm (a := closedSum2 body)]

theorem low_fletcher16 (body : Bytes) : low (fletcher16 body) = BitVec.ofNat 8 (closedSum1 body) := by
  rw [← low_fletcher16_toNat, BitVec.ofNat_toNat, BitVec.setWidth_eq]

theorem high_fletcher16 (body : Bytes) : high (fletcher16 body) = BitVec.ofNat 8 (closedSum2 body) := by
  rw [← high_fletcher16_toNat, BitVec.ofNat_toNat, BitVec.setWidth_eq]

/-! ### A frame by its bytes -/

/-- The frame that WRAP builds, with the checksum in closed form (R131). -/
theorem wrap_eq (body : Bytes) :
    wrap body = [0xC0, 0x3E, BitVec.ofNat 8 (closedSum1 body), BitVec.ofNat 8 (closedSum2 body)] ++ body := by
  rw [wrap, low_fletcher16, high_fletcher16]
  rfl

/-- UNWRAP raises `TooShort` where the four envelope bytes are not all there, whatever they are (R133 (b)). -/
theorem unwrap_of_short {raw : Bytes} (h : raw.length < 4) : unwrap raw = .error .tooShort :=
  unwrap_eq_error.2 (.inl ⟨h, rfl⟩)

/-- UNWRAP succeeds where the magic and both checksum bytes are right, with the bytes after them. -/
theorem unwrap_cons_eq_ok {b0 b1 b2 b3 : Byte} {rest body : Bytes} :
    unwrap (b0 :: b1 :: b2 :: b3 :: rest) = .ok body ↔
      (b0 = 0xC0 ∧ b1 = 0x3E) ∧ (b2.toNat = closedSum1 rest ∧ b3.toNat = closedSum2 rest) ∧ body = rest := by
  rw [← be16_eq_magic_iff, ← le16_eq_fletcher16_iff, unwrap_eq_ok]
  exact and_iff_right (Nat.le_add_left 4 rest.length)

theorem unwrap_of_wrong_magic {b0 b1 b2 b3 : Byte} {rest : Bytes} (h : ¬(b0 = 0xC0 ∧ b1 = 0x3E)) :
    unwrap (b0 :: b1 :: b2 :: b3 :: rest) = .error .badMagic :=
  unwrap_eq_error.2 (.inr (.inl ⟨Nat.le_add_left 4 rest.length, mt be16_eq_magic_iff.1 h, rfl⟩))

theorem unwrap_of_wrong_checksum {b2 b3 : Byte} {rest : Bytes}
    (h : ¬(b2.toNat = closedSum1 rest ∧ b3.toNat = closedSum2 rest)) :
    unwrap (0xC0 :: 0x3E :: b2 :: b3 :: rest) = .error .checksumMismatch :=
  unwrap_eq_error.2 (.inr (.inr ⟨Nat.le_add_left 4 rest.length, rfl, mt le16_eq_fletcher16_iff.1 h, rfl⟩))

/-! ### Unwrapping and wrapping (R132) -/

theorem unwrap_wrap (body : Bytes) : unwrap (wrap body) = .ok body :=
  unwrap_cons_eq_ok.2 ⟨⟨rfl, rfl⟩, ⟨low_fletcher16_toNat body, high_fletcher16_toNat body⟩, rfl⟩

/-- The body determines the four bytes before it. -/
theorem unwrap_eq_ok_iff_eq_wrap {raw body : Bytes} : unwrap raw = .ok body ↔ raw = wrap body := by
  constructor
  · intro h
    match raw with
    | b0 :: b1 :: b2 :: b3 :: rest =>
      obtain ⟨⟨rfl, rfl⟩, ⟨h2, h3⟩, rfl⟩ := unwrap_cons_eq_ok.1 h
      rw [wrap_eq, ← h2, ← h3, BitVec.ofNat_toNat, BitVec.ofNat_toNat, BitVec.setWidth_eq, BitVec.setWidth_eq]
      rfl
    | [] | [_] | [_, _] | [_, _, _] => exact absurd (unwrap_eq_ok.1 h).1 (by simp)
  · rintro rfl
    exact unwrap_wrap body

/-! ### The ends of UNWRAP (R130) -/

/-- An accepted UNWRAP enters `RUN` and ends there in its outcome. -/
theorem exec_unwrap_of_outcome {s : State} {raw : Bytes} {o : OpOutcome} (hok : okBytes s.params raw = true)
    (h : acceptedOutcome s.params s.secret? s.phase (.unwrap raw) = o) :
    exec (.unwrap raw) s = .next (s.enterRun.finish o) := by
  rw [← h]
  exact exec_of_ok hok

theorem exec_unwrap_of_ok {s : State} {raw body : Bytes} (hok : okBytes s.params raw = true)
    (h : unwrap raw = .ok body) : exec (.unwrap raw) s = .next (s.enterRun.complete (.bytes body)) :=
  exec_unwrap_of_outcome (o := .ok (.bytes body)) hok (by rw [acceptedOutcome, h])

theorem exec_unwrap_of_error {s : State} {raw : Bytes} {e : FrameErr} (hok : okBytes s.params raw = true)
    (h : unwrap raw = .error e) : exec (.unwrap raw) s = .next (s.enterRun.raise (.frame e)) :=
  exec_unwrap_of_outcome (o := .err (.frame e)) hok (by rw [acceptedOutcome, h])

/-- An error of UNWRAP leaves its code, phase `RUN` and the secret as it was (R275). -/
theorem exec_unwrap_error_frame {s : State} {raw : Bytes} {e : FrameErr} (hok : okBytes s.params raw = true)
    (h : unwrap raw = .error e) :
    ∃ t, exec (.unwrap raw) s = .next t
      ∧ t.status = .err ∧ t.err = errCode (.frame e) ∧ t.phase = .run ∧ sameContext s t :=
  ⟨_, exec_unwrap_of_error hok h, rfl, rfl, rfl, rfl, rfl, rfl, rfl⟩

/-! ### The settled obligations -/

/-- Settles O4 (R131): an accepted WRAP writes the frame, whose checksum bytes are the closed forms. -/
theorem wrapBuildsFrame : Obligations.WrapBuildsFrame := by
  intro s body hok
  refine ⟨?_, closedSum1_lt body, closedSum2_lt body⟩
  rw [← wrap_eq]
  exact exec_of_ok hok

/-- Settles O5 (R130): the outcome of `unwrap` on each kind of frame, and the end of the operation in it. -/
theorem unwrapValidates : Obligations.UnwrapValidates :=
  ⟨fun _ _ _ _ hok h2 h3 => exec_unwrap_of_ok hok (unwrap_cons_eq_ok.2 ⟨⟨rfl, rfl⟩, ⟨h2, h3⟩, rfl⟩),
    fun _ _ hok hlen => exec_unwrap_error_frame hok (unwrap_of_short hlen),
    fun _ _ _ _ _ _ hok hmagic => exec_unwrap_error_frame hok (unwrap_of_wrong_magic hmagic),
    fun _ _ _ _ hok hsum => exec_unwrap_error_frame hok (unwrap_of_wrong_checksum hsum)⟩

/-- Settles O6 (R132): the two directions of `unwrap_eq_ok_iff_eq_wrap`. -/
theorem frameRoundTrip : Obligations.FrameRoundTrip :=
  ⟨unwrap_wrap, fun _ _ h => (unwrap_eq_ok_iff_eq_wrap.1 h).symm⟩

end Sys2Proof.Machine
end

section
/-! PROOFS. The packet codec and its operations PDECODE, PENCODE and PENCODEX (R140 to R149). `bodyBytes` writes the
parts of a body in their order (R81); a body parses exactly where it is written so, and then in one way
(`pdecode_eq_ok_iff`). Both encoders write such a body, and so the round trips are facts about its header byte. -/

namespace Sys2Proof.Machine

/-! ### The header byte (R82, R141, R145) -/

/-- The three fields of a header byte in arithmetic (R82). -/
theorem hdr_fields_eq_ofNat (h : Byte) :
    hdrRouteType h = BitVec.ofNat 2 (h.toNat % 4) ∧ hdrPayloadType h = BitVec.ofNat 4 (h.toNat / 4 % 16)
      ∧ hdrPayloadVersion h = BitVec.ofNat 2 (h.toNat / 64) := by
  revert h; decide

theorem hdrHasTransport_eq (h : Byte) : hdrHasTransport h = decide (128 ≤ h.toNat) := by
  revert h; decide

theorem hdrHasTransport_hdrByte (ver rt : BitVec 2) (code : BitVec 4) :
    hdrHasTransport (hdrByte ver code rt) = decide (2 ≤ ver.toNat) := by
  revert ver rt code; decide

theorem hdrByte_eq_ofNat (ver rt : BitVec 2) (code : BitVec 4) :
    hdrByte ver code rt = BitVec.ofNat 8 (ver.toNat * 64 + code.toNat * 4 + rt.toNat) := by
  revert ver rt code; decide

theorem setWidth4_toNat {pt : Byte} (h : pt.toNat ≤ 15) : (pt.setWidth 4).toNat = pt.toNat := by
  rw [BitVec.toNat_setWidth]; omega

theorem setWidth2_toNat {hi : Byte} (h : hi.toNat ≤ 3) : (hi.setWidth 2).toNat = hi.toNat := by
  rw [BitVec.toNat_setWidth]; omega

theorem setWidth8_toNat_le (pt : BitVec 4) : (pt.setWidth 8).toNat ≤ 15 := by
  revert pt; decide

/-- The header that the encoders write: `hi` and the route type enter by their two low bits whatever they are, the
payload type in full. -/
theorem encodedHeader_eq_hdrByte (rt hi : Byte) {pt : Byte} (h : pt.toNat ≤ 15) :
    (hi <<< 6) ||| (pt <<< 2) ||| (rt &&& 0x03) = hdrByte (hi.setWidth 2) (pt.setWidth 4) (rt.setWidth 2) := by
  have hhi : hi <<< 6 = ((hi.setWidth 2).setWidth 8) <<< 6 := by revert hi; decide
  have hpt : pt = (pt.setWidth 4).setWidth 8 := by
    apply BitVec.eq_of_toNat_eq
    rw [BitVec.toNat_setWidth, setWidth4_toNat h]
    omega
  have hrt : rt &&& 0x03 = (rt.setWidth 2).setWidth 8 := by revert rt; decide
  rw [hdrByte, ← hhi, ← hpt, ← hrt]

/-! ### Two-byte fields in arithmetic (R10) -/

theorem low_eq_ofNat (v : Half) : low v = BitVec.ofNat 8 (v.toNat % 256) := by
  rw [← low_toNat, BitVec.ofNat_toNat, BitVec.setWidth_eq]

theorem high_eq_ofNat (v : Half) : high v = BitVec.ofNat 8 (v.toNat / 256) := by
  rw [← high_toNat, BitVec.ofNat_toNat, BitVec.setWidth_eq]

theorem le16_eq_ofNat (a b : Byte) : le16 [a, b] = BitVec.ofNat 16 (a.toNat + 256 * b.toNat) := by
  have hlow := low_toNat (le16 [a, b])
  have hhigh := high_toNat (le16 [a, b])
  rw [low_le16] at hlow
  rw [high_le16] at hhigh
  apply BitVec.eq_of_toNat_eq
  rw [BitVec.toNat_ofNat]
  omega

/-! ### Bodies by their parts (R81, R140) -/

/-- A body: the header byte, the transport codes where there are any, the path with its length byte, the payload. -/
def bodyBytes (h : Byte) (tc : Option (Half × Half)) (path payload : Bytes) : Bytes :=
  h :: (tcBytes tc ++ BitVec.ofNat 8 path.length :: (path ++ payload))

theorem pencode_eq_pencodex (rt pt : Byte) (path payload : Bytes) :
    pencode rt pt path payload = pencodex rt pt 0 none path payload := by
  simp [pencode, pencodex, tcBytes]

theorem pencodex_eq_bodyBytes (rt hi : Byte) {pt : Byte} (h : pt.toNat ≤ 15) (tc : Option (Half × Half))
    (path payload : Bytes) :
    pencodex rt pt hi tc path payload
      = bodyBytes (hdrByte (hi.setWidth 2) (pt.setWidth 4) (rt.setWidth 2)) tc path payload := by
  rw [pencodex, encodedHeader_eq_hdrByte rt hi h]
  simp [bodyBytes]

/-- PENCODEX's body for operands in range, its header in arithmetic (R146). -/
theorem pencodex_eq (rt : Byte) {pt hi : Byte} (hpt : pt.toNat ≤ 15) (hhi : hi.toNat ≤ 3)
    (tc : Option (Half × Half)) (path payload : Bytes) :
    pencodex rt pt hi tc path payload
      = bodyBytes (BitVec.ofNat 8 (hi.toNat * 64 + pt.toNat * 4 + rt.toNat % 4)) tc path payload := by
  rw [pencodex_eq_bodyBytes rt hi hpt, hdrByte_eq_ofNat, setWidth2_toNat hhi, setWidth4_toNat hpt,
    BitVec.toNat_setWidth]

/-- PENCODE's body for operands in range, its header in arithmetic (R145). -/
theorem pencode_eq (rt : Byte) {pt : Byte} (hpt : pt.toNat ≤ 15) (path payload : Bytes) :
    pencode rt pt path payload = bodyBytes (BitVec.ofNat 8 (pt.toNat * 4 + rt.toNat % 4)) none path payload := by
  have hhi : (0 : Byte).toNat ≤ 3 := by decide
  rw [pencode_eq_pencodex, pencodex_eq rt hpt hhi]
  simp

/-! ### The transport codes of a header byte (R142) -/

/-- The number of transport code bytes that a header byte calls for (R142). -/
def transportLength (h : Byte) : Nat := if hdrHasTransport h then 4 else 0

/-- Any four bytes are the bytes of transport codes. -/
theorem exists_tcBytes_eq {b : Bool} {t : Bytes} (h : t.length = if b then 4 else 0) :
    ∃ tc, tc.isSome = b ∧ tcBytes tc = t := by
  match b, t, h with
  | false, [], _ => exact ⟨none, rfl, rfl⟩
  | true, [t0, t1, t2, t3], _ =>
    exact ⟨some (le16 [t0, t1], le16 [t2, t3]), rfl, by simp only [tcBytes, bytes16_le16]; rfl⟩

/-- The transport codes that the four bytes after a header byte stand for, where it calls for them. -/
def transportCodesOf (h a b c d : Byte) : Option (Half × Half) :=
  if 128 ≤ h.toNat then some (le16 [a, b], le16 [c, d]) else none

theorem transportCodesOf_isSome (h a b c d : Byte) : (transportCodesOf h a b c d).isSome = hdrHasTransport h := by
  rw [hdrHasTransport_eq, transportCodesOf]
  split <;> simp_all

/-! ### The readers of a body (R141 to R143) -/

theorem readHeader_cons (h : Byte) (rest : Bytes) : readHeader ⟨h :: rest, 0⟩ = .ok (h, ⟨h :: rest, 1⟩) := rfl

/-- Transport codes are read where their bytes stand. -/
theorem readTransport_tcBytes (h : Byte) (tc : Option (Half × Half)) (q : Bytes) :
    readTransport tc.isSome ⟨h :: (tcBytes tc ++ q), 1⟩
      = .ok (tc, ⟨h :: (tcBytes tc ++ q), (h :: tcBytes tc).length⟩) := by
  match tc with
  | none => rfl
  | some (c0, c1) =>
    have htake : Cursor.take ⟨h :: (tcBytes (some (c0, c1)) ++ q), 1⟩ 4
        = some (bytes16 c0 ++ bytes16 c1, ⟨h :: (tcBytes (some (c0, c1)) ++ q), 5⟩) :=
      Cursor.take_eq_some.2 ⟨by simp [tcBytes, bytes16], rfl⟩
    have h0 : slice (bytes16 c0 ++ bytes16 c1) 0 2 = bytes16 c0 := rfl
    have h1 : slice (bytes16 c0 ++ bytes16 c1) 2 4 = bytes16 c1 := rfl
    simp only [readTransport, Option.isSome_some, if_true, htake, h0, h1, le16_bytes16]
    rfl

/-- A path is read where its length byte and its bytes stand. -/
theorem readPath_append (p : Bytes) {path : Bytes} (h : path.length ≤ 255) (q : Bytes) :
    readPath ⟨p ++ BitVec.ofNat 8 path.length :: (path ++ q), p.length⟩
      = .ok (path, ⟨p ++ BitVec.ofNat 8 path.length :: (path ++ q), p.length + 1 + path.length⟩) := by
  have hlen : Cursor.take ⟨p ++ BitVec.ofNat 8 path.length :: (path ++ q), p.length⟩ 1
      = some ([BitVec.ofNat 8 path.length], ⟨p ++ BitVec.ofNat 8 path.length :: (path ++ q), p.length + 1⟩) :=
    Cursor.take_eq_some.2 ⟨by simp, by simp⟩
  have hpath : Cursor.take ⟨p ++ BitVec.ofNat 8 path.length :: (path ++ q), p.length + 1⟩ path.length
      = some (path, ⟨p ++ BitVec.ofNat 8 path.length :: (path ++ q), p.length + 1 + path.length⟩) :=
    Cursor.take_eq_some.2 ⟨by simp; omega, by simp [← List.drop_drop]⟩
  have hmod : path.length % 2 ^ 8 = path.length := by omega
  simp only [readPath, hlen, List.getD_cons_zero, BitVec.toNat_ofNat, hmod, hpath]

/-- A path that runs past the end, by its length byte or before it. -/
theorem readPath_of_short {c : Cursor} (h : c.buf.length < c.pos + 1 + (c.buf.getD c.pos 0).toNat) :
    readPath c = .error .truncated := by
  unfold readPath
  split
  · rfl
  next l c' hl =>
    obtain ⟨hle, heq⟩ := Cursor.take_eq_some.1 hl
    obtain ⟨rfl, rfl⟩ := Prod.mk.inj heq
    have hbyte : ((c.buf.drop c.pos).take 1).getD 0 0 = c.buf.getD c.pos 0 := by
      simp [List.getD_eq_getElem?_getD]
    have hnone : Cursor.take ⟨c.buf, c.pos + 1⟩ (c.buf.getD c.pos 0).toNat = none := Cursor.take_eq_none.2 h
    simp only [hbyte, hnone]

/-- The transport codes are read over four bytes, or over none. -/
theorem readTransport_cases (b : Bool) (c : Cursor) :
    readTransport b c = .error .truncated
      ∨ ∃ tc, readTransport b c = .ok (tc, ⟨c.buf, c.pos + if b then 4 else 0⟩) := by
  match b with
  | false => exact .inr ⟨none, rfl⟩
  | true =>
    match ht : c.take 4 with
    | none => exact .inl (by simp only [readTransport, if_true, ht])
    | some (t, c') =>
      obtain ⟨-, heq⟩ := Cursor.take_eq_some.1 ht
      obtain ⟨-, rfl⟩ := Prod.mk.inj heq
      refine .inr ⟨some (le16 (slice t 0 2), le16 (slice t 2 4)), ?_⟩
      simp only [readTransport, if_true, ht]

/-! ### PDECODE on the bytes of a body (R140, R144, R149) -/

theorem pdecode_bodyBytes {h : Byte} {tc : Option (Half × Half)} {path : Bytes} (htc : tc.isSome = hdrHasTransport h)
    (hlen : path.length ≤ 255) (payload : Bytes) :
    pdecode (bodyBytes h tc path payload) = .ok (packetOf h tc path payload) := by
  have hpath := readPath_append (h :: tcBytes tc) hlen payload
  rw [List.cons_append] at hpath
  simp only [pdecode, bodyBytes, readHeader_cons, ← htc, readTransport_tcBytes, hpath]
  simp [Cursor.rest, ← List.drop_drop]

theorem pdecode_of_short {h : Byte} {rest : Bytes}
    (hlt : rest.length < transportLength h + 1 + (rest.getD (transportLength h) 0).toNat) :
    pdecode (h :: rest) = .error .truncated := by
  obtain hcodes | ⟨tc, hcodes⟩ := readTransport_cases (hdrHasTransport h) ⟨h :: rest, 1⟩
  · simp only [pdecode, readHeader_cons, hcodes]
  · have hpath : readPath ⟨h :: rest, 1 + transportLength h⟩ = .error .truncated := by
      apply readPath_of_short
      simp only [Nat.add_comm 1, List.getD_cons_succ, List.length_cons]
      omega
    rw [transportLength] at hpath
    simp only [pdecode, readHeader_cons, hcodes, hpath]

/-- What is not too short for its parts has them. -/
theorem exists_eq_bodyBytes {h : Byte} {rest : Bytes}
    (hle : transportLength h + 1 + (rest.getD (transportLength h) 0).toNat ≤ rest.length) :
    ∃ tc path payload,
      tc.isSome = hdrHasTransport h ∧ path.length ≤ 255 ∧ h :: rest = bodyBytes h tc path payload := by
  have hn : transportLength h < rest.length := by omega
  have hcodes : (rest.take (transportLength h)).length = transportLength h := List.length_take_of_le hn.le
  obtain ⟨tc, htc, hbytes⟩ := exists_tcBytes_eq hcodes
  have hsplit : rest = tcBytes tc ++ rest[transportLength h] :: rest.drop (transportLength h + 1) := by
    rw [hbytes, List.getElem_cons_drop, List.take_append_drop]
  have hpath : rest[transportLength h].toNat ≤ (rest.drop (transportLength h + 1)).length := by
    rw [List.getD_eq_getElem _ _ hn] at hle
    rw [List.length_drop]
    omega
  generalize rest[transportLength h] = l, rest.drop (transportLength h + 1) = tail at hsplit hpath
  have hlen : (tail.take l.toNat).length = l.toNat := List.length_take_of_le hpath
  refine ⟨tc, tail.take l.toNat, tail.drop l.toNat, htc, hlen.trans_le (Nat.le_of_lt_succ l.isLt), ?_⟩
  rw [bodyBytes, hlen, List.take_append_drop, BitVec.ofNat_toNat, BitVec.setWidth_eq, ← hsplit]

/-- A body parses exactly where it consists of the parts of its packet. -/
theorem pdecode_eq_ok_iff {body : Bytes} {p : Packet} :
    pdecode body = .ok p ↔ ∃ h tc path payload, tc.isSome = hdrHasTransport h ∧ path.length ≤ 255
      ∧ body = bodyBytes h tc path payload ∧ p = packetOf h tc path payload := by
  constructor
  · intro hp
    match body with
    | [] => cases hp
    | h :: rest =>
      obtain hlt | hle := lt_or_ge rest.length (transportLength h + 1 + (rest.getD (transportLength h) 0).toNat)
      · rw [pdecode_of_short hlt] at hp
        cases hp
      · obtain ⟨tc, path, payload, htc, hlen, heq⟩ := exists_eq_bodyBytes hle
        rw [heq, pdecode_bodyBytes htc hlen] at hp
        exact ⟨h, tc, path, payload, htc, hlen, heq, (Except.ok.inj hp).symm⟩
  · rintro ⟨h, tc, path, payload, htc, hlen, rfl, rfl⟩
    exact pdecode_bodyBytes htc hlen payload

/-! ### The encoders against PDECODE (R147, R148) -/

/-- What an encoder writes parses to the fields it was given. -/
theorem pdecode_pencodex {rt pt hi : Byte} {tc : Option (Half × Half)} {path : Bytes} (hpt : pt.toNat ≤ 15)
    (hhi : hi.toNat ≤ 3) (htc : tc.isSome = decide (2 ≤ hi.toNat)) (hlen : path.length ≤ 255) (payload : Bytes) :
    pdecode (pencodex rt pt hi tc path payload)
      = .ok (packetOf (hdrByte (hi.setWidth 2) (pt.setWidth 4) (rt.setWidth 2)) tc path payload) := by
  rw [pencodex_eq_bodyBytes rt hi hpt, pdecode_bodyBytes _ hlen]
  rw [hdrHasTransport_hdrByte, setWidth2_toNat hhi, htc]

theorem pdecode_pencode (rt : BitVec 2) (pt : BitVec 4) {path : Bytes} (hlen : path.length ≤ 255) (payload : Bytes) :
    pdecode (pencode (rt.setWidth 8) (pt.setWidth 8) path payload)
      = .ok (packetOf (hdrByte 0 pt rt) none path payload) := by
  rw [pencode_eq_pencodex, pdecode_pencodex (setWidth8_toNat_le pt) (by decide) rfl hlen]
  simp

/-- PENCODEX of the fields of a header byte writes that header byte. -/
theorem pencodex_hdr_fields (h : Byte) (tc : Option (Half × Half)) (path payload : Bytes) :
    pencodex ((hdrRouteType h).setWidth 8) ((hdrPayloadType h).setWidth 8) ((hdrPayloadVersion h).setWidth 8) tc path
      payload = bodyBytes h tc path payload := by
  rw [pencodex_eq_bodyBytes _ _ (setWidth8_toNat_le _)]
  simp [hdrByte_fields]

/-! ### The ends of PDECODE -/

/-- An accepted PDECODE enters `RUN` and ends there in its outcome. -/
theorem exec_pdecode_of_outcome {s : State} {body : Bytes} {o : OpOutcome} (hok : okBytes s.params body = true)
    (h : acceptedOutcome s.params s.secret? s.phase (.pdecode body) = o) :
    exec (.pdecode body) s = .next (s.enterRun.finish o) :=
  h ▸ exec_of_ok hok

theorem exec_pdecode_of_ok {s : State} {body : Bytes} {p : Packet} (hok : okBytes s.params body = true)
    (h : pdecode body = .ok p) : exec (.pdecode body) s = .next (s.enterRun.complete (.packet p)) :=
  exec_pdecode_of_outcome (o := .ok (.packet p)) hok (by rw [acceptedOutcome, h])

/-- An error of PDECODE leaves its code, phase `RUN` and the secret as it was (R275). -/
theorem exec_pdecode_error_frame {s : State} {body : Bytes} {e : PacketErr} (hok : okBytes s.params body = true)
    (h : pdecode body = .error e) :
    ∃ t, exec (.pdecode body) s = .next t
      ∧ t.status = .err ∧ t.err = errCode (.packet e) ∧ t.phase = .run ∧ sameContext s t :=
  ⟨_, exec_pdecode_of_outcome (o := .err (.packet e)) hok (by rw [acceptedOutcome, h]),
    rfl, rfl, rfl, rfl, rfl, rfl, rfl⟩

/-! ### The ends of PENCODE and PENCODEX -/

theorem exec_pencode_of_ok {s : State} {rt pt : Byte} {path payload : Bytes}
    (hok : okPencode s.params pt path payload = true) :
    exec (.pencode rt pt path payload) s = .next (s.complete (.bytes (pencode rt pt path payload))) :=
  exec_of_ok hok

theorem exec_pencodex_of_ok {s : State} {rt pt hi : Byte} {tc : Option (Half × Half)} {path payload : Bytes}
    (hok : okPencode s.params pt path payload = true) (hhi : hi.toNat ≤ 3)
    (htc : tc.isSome = decide (2 ≤ hi.toNat)) :
    exec (.pencodex rt pt hi tc path payload) s = .next (s.complete (.bytes (pencodex rt pt hi tc path payload))) := by
  have hcodes : okTc hi tc = true := by
    rw [okTc, bit1_eq_decide hhi, htc, beq_self_eq_true]
  have hops : operandsOk s.params (.pencodex rt pt hi tc path payload) = true := by
    simp [operandsOk, hok, okU2, hhi, hcodes]
  exact exec_of_ok hops

/-! ### The settled obligations -/

/-- Settles O7 (R140 to R144): the body consists of the parts of its packet, whose fields are written in arithmetic. -/
theorem pdecodeParsesBody : Obligations.PdecodeParsesBody := by
  intro s h a b c d path payload hlen t body hok
  have hbody : body = bodyBytes h (transportCodesOf h a b c d) path payload := by
    simp only [body, t, bodyBytes, transportCodesOf]
    split <;> simp [tcBytes, bytes16_le16]
  rw [exec_pdecode_of_ok hok (hbody ▸ pdecode_bodyBytes (transportCodesOf_isSome h a b c d) hlen payload)]
  obtain ⟨hrt, hpt, hver⟩ := hdr_fields_eq_ofNat h
  rw [packetOf, hrt, hpt, hver, hdrHasTransport_eq, transportCodesOf, le16_eq_ofNat, le16_eq_ofNat]
  rfl

/-- Settles O8 (R141 to R143, R149): no header byte to read, or one whose parts the bytes after it are too short for. -/
theorem pdecodeTruncates : Obligations.PdecodeTruncates := by
  intro s body hok
  constructor
  · rintro rfl
    exact exec_pdecode_error_frame hok rfl
  · rintro h rest rfl n hlt
    have hn : n = transportLength h := by
      rw [transportLength, hdrHasTransport_eq]
      simp [n]
    exact exec_pdecode_error_frame hok (pdecode_of_short (hn ▸ hlt))

/-- Settles O9 (R145): the operand test passes, and the header is PENCODEX's with `hi = 0`. -/
theorem pencodeBuildsBody : Obligations.PencodeBuildsBody := by
  intro s rt pt path payload hpt hlen hpath hpayload
  refine ⟨by omega, ?_⟩
  rw [exec_pencode_of_ok (okPencode_iff.2 ⟨hpt, hlen, hpath, hpayload⟩), pencode_eq rt hpt]
  rfl

/-- Settles O10 (R147): the packet read back has the header of version 0, and so is not one with another version. -/
theorem pencodeRoundTrip : Obligations.PencodeRoundTrip := by
  constructor
  · intro rt pt path payload hlen
    rw [pdecode_pencode rt pt hlen, packetOf, hdrRouteType_hdrByte, hdrPayloadType_hdrByte,
      hdrPayloadVersion_hdrByte, hdrHasTransport_hdrByte, hdrByte_eq_ofNat]
    simp
  · intro body p hp hver
    obtain ⟨h, tc, path, payload, -, hlen, -, rfl⟩ := pdecode_eq_ok_iff.1 hp
    have hzero : (packetOf (hdrByte 0 (hdrPayloadType h) (hdrRouteType h)) none path payload).payloadVersion = 0 :=
      hdrPayloadVersion_hdrByte ..
    exact ⟨_, pdecode_pencode _ _ hlen payload, fun heq => hver (heq ▸ hzero), hzero, rfl, rfl, rfl⟩

/-- Settles O11 (R146): transport codes that go with `hi` pass the operand test, and any others are a malformed
operand. -/
theorem pencodexBuildsBody : Obligations.PencodexBuildsBody := by
  constructor
  · intro s rt pt hi path payload c0 c1 hpt hlen hpath hpayload
    have hok := okPencode_iff.2 ⟨hpt, hlen, hpath, hpayload⟩
    refine ⟨fun hlt => ?_, fun hge hle => ?_, ?_⟩
    · have hle : hi.toNat ≤ 3 := by omega
      have htc : (none : Option (Half × Half)).isSome = decide (2 ≤ hi.toNat) := by simpa using hlt
      rw [exec_pencodex_of_ok hok hle htc, pencodex_eq rt hpt hle]
      rfl
    · have htc : (some (c0, c1)).isSome = decide (2 ≤ hi.toNat) := by simpa using hge
      rw [exec_pencodex_of_ok hok hle htc, pencodex_eq rt hpt hle, bodyBytes, tcBytes, bytes16, bytes16, low_eq_ofNat,
        low_eq_ofNat, high_eq_ofNat, high_eq_ofNat]
      rfl
    · rw [exec_pencodex_of_ok hok (by decide) rfl, exec_pencode_of_ok hok, pencode_eq_pencodex]
  · intro s rt pt hi tc path payload hle htc
    have hbad : malformed s.params (.pencodex rt pt hi tc path payload) := .inr (.inr (.inr (.inl htc)))
    have hexec := exec_of_bad (Bool.eq_false_iff.2 fun hok => operandsOk_iff.1 hok hbad)
    exact ⟨_, hexec, rfl, rfl, rfl, rfl, rfl, rfl, rfl⟩

/-- Settles O12 (R148): a body that parses is what PENCODEX writes from the fields of its header byte, and the fields of
a header byte that PENCODEX writes are its operands. -/
theorem pencodexExactRoundTrip : Obligations.PencodexExactRoundTrip := by
  constructor
  · intro body p hp
    obtain ⟨h, tc, path, payload, -, -, rfl, rfl⟩ := pdecode_eq_ok_iff.1 hp
    exact pencodex_hdr_fields h tc path payload
  · intro rt pt hi tc path payload hpt hhi htc hlen
    refine ⟨_, pdecode_pencodex hpt hhi htc hlen payload, ?_⟩
    simp only [packetOf, hdrRouteType_hdrByte, hdrPayloadType_hdrByte, hdrPayloadVersion_hdrByte,
      hdrHasTransport_hdrByte, setWidth2_toNat hhi, setWidth4_toNat hpt, BitVec.toNat_setWidth, and_self]

end Sys2Proof.Machine
end

section
/-! PROOFS. The primitives of SHA-256 and AES-128 (R160, R167 to R178). Decryption takes encryption back round by
round: each layer of a forward round has its inverse (`invShiftRows_shiftRows`, `invSubBytes_subBytes`,
`invMixColumns_mixColumns`), and adding a round key twice is no change (`xorBytes_cancel`). The columns rest on one fact
about the field of R168: `xtime` is additive, and both products of R175 and R178 are sums of its iterates. -/

namespace Sys2Proof.Machine

/-! ### Pieces of a byte string (R160, R177) -/

@[simp] theorem length_pieces (n k : Nat) (b : Bytes) : (pieces n k b).length = k := by
  induction k generalizing b with
  | zero => rfl
  | succ k ih => simp [pieces, ih]

theorem length_of_mem_pieces {n k : Nat} {b p : Bytes} (h : n * k ≤ b.length) (hp : p ∈ pieces n k b) :
    p.length = n := by
  induction k generalizing b with
  | zero => cases hp
  | succ k ih =>
    rw [Nat.mul_succ] at h
    obtain rfl | hp := List.mem_cons.1 hp
    · simp; omega
    · exact ih (by simp; omega) hp

theorem length_flatten_of_forall {n : Nat} {bs : List Bytes} (h : ∀ b ∈ bs, b.length = n) :
    bs.flatten.length = n * bs.length := by
  rw [List.length_flatten, List.sum_eq_card_nsmul _ n (by simpa using h), List.length_map, smul_eq_mul, Nat.mul_comm]

/-- Cutting a concatenation of pieces gives the pieces back. -/
theorem pieces_flatten {n : Nat} {bs : List Bytes} (h : ∀ b ∈ bs, b.length = n) :
    pieces n bs.length bs.flatten = bs := by
  induction bs with
  | nil => rfl
  | cons b bs ih =>
    obtain ⟨hb, hbs⟩ := List.forall_mem_cons.1 h
    simp only [List.length_cons, List.flatten_cons, pieces]
    rw [List.take_left' hb, List.drop_left' hb, ih hbs]

/-! ### The length field of SHA-256 (R160) -/

@[simp] theorem length_be64 (v : Nat) : (be64 v).length = 8 := rfl

/-- `be64` writes its number modulo 2^64, the most significant byte first. -/
theorem be64_foldl (v : Nat) : (be64 v).foldl (fun n (b : Byte) => n * 256 + b.toNat) 0 = v % 2 ^ 64 := by
  simp only [be64, List.foldl_cons, List.foldl_nil, BitVec.toNat_setWidth, BitVec.toNat_ushiftRight,
    BitVec.toNat_ofNat, Nat.shiftRight_eq_div_pow]
  omega

/-! ### XOR of byte strings (R165, R171) -/

theorem byte_xor_left_comm (a b c : Byte) : a ^^^ (b ^^^ c) = b ^^^ (a ^^^ c) := by
  rw [← BitVec.xor_assoc, BitVec.xor_comm a, BitVec.xor_assoc]

@[simp] theorem length_xorBytes (a b : Bytes) : (xorBytes a b).length = min a.length b.length := by
  simp [xorBytes]

/-- Adding the same round key twice is no change. -/
theorem xorBytes_cancel {a b : Bytes} (h : a.length = b.length) : xorBytes (xorBytes a b) b = a := by
  induction a generalizing b with
  | nil => rfl
  | cons x a ih =>
    cases b with
    | nil => cases h
    | cons y b =>
      have hxy : x ^^^ y ^^^ y = x := by rw [BitVec.xor_assoc, BitVec.xor_self, BitVec.xor_zero]
      exact congrArg₂ List.cons hxy (ih (Nat.succ.inj h))

/-! ### The field (R168) -/

/-- `xtime` by the top bit, which is additive, where R168 compares the number. -/
theorem xtime_eq (a : Byte) : xtime a = a <<< 1 ^^^ if a.msb then 0x1B else 0 := by
  by_cases h : a.toNat < 0x80 <;> simp [xtime, BitVec.msb_eq_decide, ← Nat.not_lt, h]

/-- `xtime` is additive. -/
theorem xtime_xor (a b : Byte) : xtime (a ^^^ b) = xtime a ^^^ xtime b := by
  rw [xtime_eq, xtime_eq, xtime_eq, BitVec.shiftLeft_xor_distrib, BitVec.msb_xor]
  cases a.msb <;> cases b.msb <;> simp [BitVec.xor_assoc, BitVec.xor_comm, byte_xor_left_comm]

theorem gmulLoop_xor (n : Nat) (r r' a a' b : Byte) :
    gmulLoop n (r ^^^ r') (a ^^^ a') b = gmulLoop n r a b ^^^ gmulLoop n r' a' b := by
  induction n generalizing r r' a a' b with
  | zero => rfl
  | succ n ih =>
    rw [gmulLoop, gmulLoop, gmulLoop, ← ih, ← xtime_xor]
    congr 1
    split
    · ac_rfl
    · rfl

/-- The product is additive in the byte of the state. -/
theorem gmul_xor (a a' b : Byte) : gmul (a ^^^ a') b = gmul a b ^^^ gmul a' b :=
  gmulLoop_xor 8 0 0 a a' b

/-! The constants of R175 and R178 as polynomials in `xtime`. -/

theorem gmul_02 (a : Byte) : gmul a 0x02 = xtime a := by simp [gmul, gmulLoop]

theorem gmul_03 (a : Byte) : gmul a 0x03 = a ^^^ xtime a := by simp [gmul, gmulLoop]

theorem gmul_09 (a : Byte) : gmul a 0x09 = a ^^^ xtime (xtime (xtime a)) := by simp [gmul, gmulLoop]

theorem gmul_0b (a : Byte) : gmul a 0x0b = a ^^^ xtime a ^^^ xtime (xtime (xtime a)) := by simp [gmul, gmulLoop]

theorem gmul_0d (a : Byte) : gmul a 0x0d = a ^^^ xtime (xtime a) ^^^ xtime (xtime (xtime a)) := by
  simp [gmul, gmulLoop]

theorem gmul_0e (a : Byte) : gmul a 0x0e = xtime a ^^^ xtime (xtime a) ^^^ xtime (xtime (xtime a)) := by
  simp [gmul, gmulLoop]

/-! ### The columns (R175, R178) -/

/-- One byte of a mixed column (R178): the rows of `mixColumn` are this of the rotations of the column. -/
def mixByte (a b c d : Byte) : Byte := gmul a 0x02 ^^^ gmul b 0x03 ^^^ c ^^^ d

/-- One byte of an inversely mixed column (R175). -/
def invMixByte (a b c d : Byte) : Byte := gmul a 0x0e ^^^ gmul b 0x0b ^^^ gmul c 0x0d ^^^ gmul d 0x09

theorem mixColumn_eq (a b c d : Byte) :
    mixColumn a b c d = [mixByte a b c d, mixByte b c d a, mixByte c d a b, mixByte d a b c] := by
  simp only [mixColumn, mixByte, List.cons.injEq, and_true, true_and]
  refine ⟨?_, ?_, ?_⟩ <;> ac_rfl

theorem invMixColumn_eq (a b c d : Byte) :
    invMixColumn a b c d = [invMixByte a b c d, invMixByte b c d a, invMixByte c d a b, invMixByte d a b c] := by
  simp only [invMixColumn, invMixByte, List.cons.injEq, and_true, true_and]
  refine ⟨?_, ?_, ?_⟩ <;> ac_rfl

/-- The polynomial of R175 times the polynomial of R178 is 1: each coefficient of the product, applied to one byte. -/
theorem invMix_coefficients (a : Byte) :
    invMixByte (gmul a 0x02) a a (gmul a 0x03) = a ∧ invMixByte (gmul a 0x03) (gmul a 0x02) a a = 0#8
      ∧ invMixByte a (gmul a 0x03) (gmul a 0x02) a = 0#8 ∧ invMixByte a a (gmul a 0x03) (gmul a 0x02) = 0#8 := by
  simp only [invMixByte, gmul_02, gmul_03, gmul_09, gmul_0b, gmul_0d, gmul_0e, xtime_xor]
  simp [BitVec.xor_assoc, BitVec.xor_comm, byte_xor_left_comm]

theorem invMixByte_xor (a b c d a' b' c' d' : Byte) :
    invMixByte (a ^^^ a') (b ^^^ b') (c ^^^ c') (d ^^^ d') = invMixByte a b c d ^^^ invMixByte a' b' c' d' := by
  simp only [invMixByte, gmul_xor]
  ac_rfl

/-- Each byte of a column comes back: its own coefficient is 1 and those of the other three bytes are 0. -/
theorem invMixByte_mixByte (a b c d : Byte) :
    invMixByte (mixByte a b c d) (mixByte b c d a) (mixByte c d a b) (mixByte d a b c) = a := by
  have hb : mixByte b c d a = a ^^^ gmul b 0x02 ^^^ gmul c 0x03 ^^^ d := by unfold mixByte; ac_rfl
  have hc : mixByte c d a b = a ^^^ b ^^^ gmul c 0x02 ^^^ gmul d 0x03 := by unfold mixByte; ac_rfl
  have hd : mixByte d a b c = gmul a 0x03 ^^^ b ^^^ c ^^^ gmul d 0x02 := by unfold mixByte; ac_rfl
  obtain ⟨ha1, -, -, -⟩ := invMix_coefficients a
  obtain ⟨-, hb0, -, -⟩ := invMix_coefficients b
  obtain ⟨-, -, hc0, -⟩ := invMix_coefficients c
  obtain ⟨-, -, -, hd0⟩ := invMix_coefficients d
  rw [hb, hc, hd, mixByte, invMixByte_xor, invMixByte_xor, invMixByte_xor, ha1, hb0, hc0, hd0,
    BitVec.xor_zero, BitVec.xor_zero, BitVec.xor_zero]

theorem invMixColumns_mixColumn_append (a b c d : Byte) (s : Bytes) :
    invMixColumns (mixColumn a b c d ++ s) = a :: b :: c :: d :: invMixColumns s := by
  simp only [mixColumn_eq, List.cons_append, List.nil_append, invMixColumns, invMixColumn_eq, invMixByte_mixByte]

/-- Whole columns without a first column are empty: the last case of `mixColumns`. -/
theorem eq_nil_of_no_column {s : Bytes} (hs : ∀ a b c d rest, s = a :: b :: c :: d :: rest → False)
    (h : s.length % 4 = 0) : s = [] := by
  match s with
  | [] => rfl
  | [_] | [_, _] | [_, _, _] => simp at h
  | a :: b :: c :: d :: rest => exact (hs a b c d rest rfl).elim

/-- `InvMixColumns` takes `MixColumns` back on whole columns. -/
theorem invMixColumns_mixColumns {s : Bytes} (h : s.length % 4 = 0) : invMixColumns (mixColumns s) = s := by
  induction s using mixColumns.induct with
  | case1 a b c d rest ih => rw [mixColumns, invMixColumns_mixColumn_append, ih (by simp at h; omega)]
  | case2 s hs => rw [eq_nil_of_no_column hs h]; rfl

theorem length_mixColumns {s : Bytes} (h : s.length % 4 = 0) : (mixColumns s).length = s.length := by
  induction s using mixColumns.induct with
  | case1 a b c d rest ih => simp [mixColumns, mixColumn, ih (by simp at h; omega)]
  | case2 s hs => rw [eq_nil_of_no_column hs h]; rfl

/-! ### The other layers (R173, R174, R178) -/

@[simp] theorem length_subBytes (s : Bytes) : (subBytes s).length = s.length := List.length_map ..

@[simp] theorem length_shiftRows (s : Bytes) : (shiftRows s).length = 16 := rfl

theorem invSubBytes_subBytes (s : Bytes) : invSubBytes (subBytes s) = s := by
  rw [invSubBytes, subBytes, List.map_map, Function.LeftInverse.comp_eq_id invSbox_sbox, List.map_id]

theorem map_getD_range (s : Bytes) : (List.range s.length).map (s.getD · 0) = s :=
  List.ext_getElem (by simp) fun i _ h => by
    rw [List.getElem_map, List.getElem_range, List.getD_eq_getElem _ _ h]

/-- The two index lists are inverse permutations. -/
theorem invShiftRows_shiftRows {s : Bytes} (h : s.length = 16) : invShiftRows (shiftRows s) = s := by
  have hread : invShiftRows (shiftRows s) = (List.range 16).map (s.getD · 0) := rfl
  rw [hread, ← h, map_getD_range]

/-! ### The rounds (R176, R178) -/

theorem length_mixColumns_shiftRows (s : Bytes) : (mixColumns (shiftRows s)).length = 16 :=
  length_mixColumns (s := shiftRows s) (by simp)

theorem length_aesRound {s rk : Bytes} (hrk : rk.length = 16) : (aesRound s rk).length = 16 := by
  rw [aesRound, length_xorBytes, hrk, length_mixColumns_shiftRows, Nat.min_self]

/-- The state of the inverse cipher after `InvSubBytes` and `InvShiftRows` is the state of the forward cipher before
`SubBytes` and `ShiftRows`. -/
theorem invSub_invShift_shift_sub {s : Bytes} (h : s.length = 16) :
    invSubBytes (invShiftRows (shiftRows (subBytes s))) = s := by
  rw [invShiftRows_shiftRows (by simpa using h), invSubBytes_subBytes]

/-- An inverse round takes back the forward round with the same round key; the two ciphers cut their rounds at
different layers, and so the law is about the state that enters `MixColumns`. -/
theorem aesInvRound_shift_sub_aesRound {s rk : Bytes} (hrk : rk.length = 16) :
    aesInvRound (shiftRows (subBytes (aesRound s rk))) rk = shiftRows (subBytes s) := by
  rw [aesInvRound, invSub_invShift_shift_sub (length_aesRound hrk), aesRound,
    xorBytes_cancel (by rw [hrk, length_mixColumns_shiftRows]), invMixColumns_mixColumns (by simp)]

theorem foldl_aesInvRound_reverse {rks : List Bytes} (hrks : ∀ rk ∈ rks, rk.length = 16) (s : Bytes) :
    rks.reverse.foldl aesInvRound (shiftRows (subBytes (rks.foldl aesRound s))) = shiftRows (subBytes s) := by
  induction rks generalizing s with
  | nil => rfl
  | cons rk rks ih =>
    obtain ⟨hrk, hrks⟩ := List.forall_mem_cons.1 hrks
    rw [List.reverse_cons, List.foldl_append, List.foldl_cons (l := rks), ih hrks]
    exact aesInvRound_shift_sub_aesRound hrk

/-! ### The key schedule (R171) -/

@[simp] theorem length_rotWord (w : Bytes) : (rotWord w).length = w.length := by
  simp [rotWord]; omega

theorem length_aesNextWord {ws : List Bytes} (h4 : 4 ≤ ws.length) (h : ∀ w ∈ ws, w.length = 4) :
    (aesNextWord ws).length = 4 := by
  have hget (i : Nat) (hi : i < ws.length) : (ws.getD i []).length = 4 := by
    rw [List.getD_eq_getElem _ _ hi]
    exact h _ (List.getElem_mem hi)
  have hprev := hget (ws.length - 1) (by omega)
  have hback := hget (ws.length - 4) (by omega)
  simp only [aesNextWord, length_xorBytes, hback]
  split
  · rw [length_xorBytes, List.length_map, length_rotWord, hprev]; rfl
  · rw [hprev]; rfl

theorem aesExtend_lengths (n : Nat) {ws : List Bytes} (h4 : 4 ≤ ws.length) (h : ∀ w ∈ ws, w.length = 4) :
    (aesExtend n ws).length = ws.length + n ∧ ∀ w ∈ aesExtend n ws, w.length = 4 := by
  induction n generalizing ws with
  | zero => exact ⟨rfl, h⟩
  | succ n ih =>
    have hws : ∀ w ∈ ws ++ [aesNextWord ws], w.length = 4 := by
      simpa [or_imp, forall_and] using ⟨h, length_aesNextWord h4 h⟩
    obtain ⟨hlen, hmem⟩ := ih (by simp; omega) hws
    exact ⟨by rw [aesExtend, hlen]; simp; omega, hmem⟩

/-- The 40 words that follow the key's four fill all eleven round keys. -/
theorem length_of_mem_aesRoundKeys {key rk : Bytes} (h : key.length = 16) (hrk : rk ∈ aesRoundKeys key) :
    rk.length = 16 := by
  have hfirst : ∀ w ∈ [slice key 0 4, slice key 4 8, slice key 8 12, slice key 12 16], w.length = 4 := by
    simp [slice, h]
  obtain ⟨hlen, hmem⟩ := aesExtend_lengths 40 (by simp) hfirst
  refine length_of_mem_pieces ?_ hrk
  rw [aesWords, length_flatten_of_forall hmem, hlen]
  rfl

theorem length_aesRoundKeys_getD {key : Bytes} (h : key.length = 16) {i : Nat} (hi : i < 11) :
    ((aesRoundKeys key).getD i []).length = 16 := by
  have hlen : i < (aesRoundKeys key).length := by simpa [aesRoundKeys] using hi
  rw [List.getD_eq_getElem _ _ hlen]
  exact length_of_mem_aesRoundKeys h (List.getElem_mem hlen)

theorem aes128Dec_aes128Enc {key block : Bytes} (hkey : key.length = 16) (hblock : block.length = 16) :
    aes128Dec key (aes128Enc key block) = block := by
  have hrk0 := length_aesRoundKeys_getD hkey (show 0 < 11 by decide)
  have hrk10 := length_aesRoundKeys_getD hkey (show 10 < 11 by decide)
  have hmid : ∀ rk ∈ ((aesRoundKeys key).take 10).drop 1, rk.length = 16 := fun rk h =>
    length_of_mem_aesRoundKeys hkey (List.mem_of_mem_take (List.mem_of_mem_drop h))
  rw [aes128Dec, aes128Enc, aesDecryptWith, xorBytes_cancel (by rw [length_shiftRows, hrk10]),
    foldl_aesInvRound_reverse hmid, invSub_invShift_shift_sub (by rw [length_xorBytes, hblock, hrk0, Nat.min_self]),
    xorBytes_cancel (by rw [hblock, hrk0])]

/-! ### The obligations -/

/-- Settles O18 (R178), by taking the rounds back one by one. -/
theorem aesDecryptInvertsEncrypt : Obligations.AesDecryptInvertsEncrypt :=
  fun _ _ => aes128Dec_aes128Enc

/-- Settles O19 (R177): the pieces that ECB decrypts are the blocks. -/
theorem ecbBlocksIndependent : Obligations.EcbBlocksIndependent := by
  intro key blocks h
  rw [ecbDec, length_flatten_of_forall h, Nat.mul_div_cancel_left _ (by decide), pieces_flatten h]

/-- Settles O20 (R160): `(55 - L) mod 64` is the least number of zero bytes, since it is below 64 and any other that
gives a whole number of blocks differs from it by a multiple of 64. -/
theorem shaPaddingShape : Obligations.ShaPaddingShape := by
  intro m
  refine ⟨_, _, rfl, length_be64 _, be64_foldl _, ?_, fun j hj => ?_⟩
  · simp only [shaPad, List.length_append, List.length_cons, List.length_nil, List.length_replicate, length_be64]
    omega
  · omega

end Sys2Proof.Machine
end

section
/-! PROOFS. The authenticated cipher's sequencer (R190 to R200): `Strip0` by the zeros it removes, `Unpad` on each of
its two kinds of plaintext, the ends of MACDEC, and that `ECB_DEC` takes `ECB_ENC` back, from which the law of a sealed
buffer follows. -/

namespace Sys2Proof.Machine

/-! ### Trailing zeros (R197) -/

/-- What `Strip0` removes is zero bytes only. -/
theorem exists_eq_strip0_append_zeros (b : Bytes) : ∃ k, b = strip0 b ++ List.replicate k 0x00 := by
  induction b using List.reverseRecOn with
  | nil => exact ⟨0, rfl⟩
  | append_singleton b x ih =>
    by_cases hx : x = 0x00
    · obtain ⟨k, hk⟩ := ih
      refine ⟨k + 1, ?_⟩
      rw [hx, strip0_append_zero, List.replicate_succ', ← List.append_assoc, ← hk]
    · exact ⟨0, by rw [strip0_append_nonzero b hx, List.replicate_zero, List.append_nil]⟩

theorem strip0_of_no_trailing_zero {b : Bytes} (h : ∀ a, b ≠ a ++ [0x00]) : strip0 b = b := by
  obtain rfl | ⟨a, x, rfl⟩ := List.eq_nil_or_concat' b
  · rfl
  · exact strip0_append_nonzero a fun hx => h a (by rw [hx])

/-- `Strip0` removes every trailing zero. -/
theorem strip0_ne_append_zero (b a : Bytes) : strip0 b ≠ a ++ [0x00] := by
  induction b using List.reverseRecOn with
  | nil => simp
  | append_singleton b x ih =>
    by_cases hx : x = 0x00
    · rwa [hx, strip0_append_zero]
    · rw [strip0_append_nonzero b hx]
      exact fun h => hx (List.singleton_inj.1 (List.append_inj' h rfl).2)

/-! ### The two branches of `Unpad` (R196) -/

/-- Padding of `n` bytes of value `n` is removed, and nothing before it. -/
theorem unpad_append_padding (a : Bytes) {n : Nat} (h1 : 1 ≤ n) (h16 : n ≤ 16) :
    unpad (a ++ List.replicate n (BitVec.ofNat 8 n)) = a := by
  have hval : (BitVec.ofNat 8 n).toNat = n := by
    rw [BitVec.toNat_ofNat, Nat.mod_eq_of_lt (by omega)]
  have hlast : (a ++ List.replicate n (BitVec.ofNat 8 n)).getD (a.length + n - 1) 0 = BitVec.ofNat 8 n := by
    rw [List.getD_append_right _ _ _ _ (by omega), List.getD_replicate _ (by omega)]
  have hrange : ¬(n = 0 ∨ n > 16) := by omega
  simp only [unpad, List.length_append, List.length_replicate, hlast, hval, if_neg hrange, Nat.add_sub_cancel,
    List.drop_left, List.take_left, List.all_replicate]
  simp

/-- A plaintext without valid padding takes the lenient fallback, whichever of the two tests it fails. -/
theorem unpad_of_no_padding {plain : Bytes} (hlen : 16 ≤ plain.length)
    (h : ∀ (a : Bytes) (n : Nat), 1 ≤ n → n ≤ 16 → plain ≠ a ++ List.replicate n (BitVec.ofNat 8 n)) :
    unpad plain = strip0 plain := by
  simp only [unpad]
  split_ifs with hrange hall
  · rfl
  · generalize hn : (plain.getD (plain.length - 1) 0).toNat = n at hrange hall
    have htail : plain.drop (plain.length - n) = List.replicate n (BitVec.ofNat 8 n) := by
      refine List.eq_replicate_iff.2 ⟨by rw [List.length_drop]; omega, fun x hx => ?_⟩
      have hxn : x.toNat = n := by simpa using List.all_eq_true.1 hall x hx
      rw [← hxn, BitVec.ofNat_toNat, BitVec.setWidth_eq]
    refine absurd ?_ (h (plain.take (plain.length - n)) n (by omega) (by omega))
    rw [← htail, List.take_append_drop]
  · rfl

/-! ### Decrypting what was encrypted (R177, R178) -/

theorem flatten_pieces {n k : Nat} {b : Bytes} (h : b.length = n * k) : (pieces n k b).flatten = b := by
  induction k generalizing b with
  | zero => exact (List.eq_nil_of_length_eq_zero h).symm
  | succ k ih =>
    rw [Nat.mul_succ] at h
    rw [pieces, List.flatten_cons, ih (by rw [List.length_drop]; omega), List.take_append_drop]

theorem length_aes128Enc {key : Bytes} (h : key.length = 16) (block : Bytes) : (aes128Enc key block).length = 16 := by
  rw [aes128Enc, length_xorBytes, length_shiftRows, length_aesRoundKeys_getD h (by decide), Nat.min_self]

theorem length_of_mem_map_aes128Enc {key c : Bytes} (hkey : key.length = 16) {blocks : List Bytes}
    (hc : c ∈ blocks.map (aes128Enc key)) : c.length = 16 := by
  obtain ⟨b, -, rfl⟩ := List.mem_map.1 hc
  exact length_aes128Enc hkey b

theorem length_ecbEnc {key pt : Bytes} (hkey : key.length = 16) (hpt : pt.length % 16 = 0) :
    (ecbEnc key pt).length = pt.length := by
  rw [ecbEnc, length_flatten_of_forall fun _ => length_of_mem_map_aes128Enc hkey, List.length_map, length_pieces]
  omega

/-- `ECB_DEC` takes `ECB_ENC` back on whole blocks, block by block. -/
theorem ecbDec_ecbEnc {key pt : Bytes} (hkey : key.length = 16) (hpt : pt.length % 16 = 0) :
    ecbDec key (ecbEnc key pt) = pt := by
  have hblock : ∀ b ∈ pieces 16 (pt.length / 16) pt, aes128Dec key (aes128Enc key b) = b := fun b hb =>
    aes128Dec_aes128Enc hkey (length_of_mem_pieces (by omega) hb)
  rw [ecbEnc, ecbBlocksIndependent key _ fun _ => length_of_mem_map_aes128Enc hkey, List.map_map,
    Function.comp_def, List.map_congr_left hblock, List.map_id', flatten_pieces (by omega)]

/-! ### MacDec by the bytes of its buffer (R190) -/

@[simp] theorem length_tag2 (secret ct : Bytes) : (tag2 secret ct).length = 2 := rfl

theorem macDec_of_short {secret buffer : Bytes} (h : buffer.length ≤ 2) : macDec secret buffer = .error .tooShort :=
  macDec_eq_error.2 (.inl ⟨h, rfl⟩)

theorem two_lt_length_of_ciphertext (tag0 tag1 : Byte) {ct : Bytes} (hct : ct ≠ []) :
    2 < (tag0 :: tag1 :: ct).length :=
  Nat.add_lt_add_right (List.length_pos_iff.2 hct) 2

theorem macDec_of_right_tag {secret ct : Bytes} {tag0 tag1 : Byte} (hct : ct ≠ [])
    (htag : tag2 secret ct = [tag0, tag1]) (hlen : ct.length % 16 = 0) :
    macDec secret (tag0 :: tag1 :: ct) = .ok (unpad (ecbDec (secret.take 16) ct)) :=
  macDec_eq_ok.2 ⟨two_lt_length_of_ciphertext tag0 tag1 hct, htag.symm, hlen, rfl⟩

/-- The tag is checked before the length of the ciphertext, whatever that is (R193). -/
theorem macDec_of_wrong_tag {secret ct : Bytes} {tag0 tag1 : Byte} (hct : ct ≠ [])
    (htag : tag2 secret ct ≠ [tag0, tag1]) :
    macDec secret (tag0 :: tag1 :: ct) = .error .authenticationFailed :=
  macDec_eq_error.2 (.inr (.inl ⟨two_lt_length_of_ciphertext tag0 tag1 hct, htag.symm, rfl⟩))

theorem macDec_of_partial_block {secret ct : Bytes} {tag0 tag1 : Byte} (hct : ct ≠ [])
    (htag : tag2 secret ct = [tag0, tag1]) (hlen : ct.length % 16 ≠ 0) :
    macDec secret (tag0 :: tag1 :: ct) = .error .invalidBlockLength :=
  macDec_eq_error.2 (.inr (.inr ⟨two_lt_length_of_ciphertext tag0 tag1 hct, htag.symm, hlen, rfl⟩))

/-- Sealing puts the right tag before whole blocks, and so the sealed plaintext is decrypted and unpadded (R200). -/
theorem macDec_sealBuffer {secret pt : Bytes} (hsecret : 16 ≤ secret.length) (hpt : pt ≠ [])
    (hlen : pt.length % 16 = 0) : macDec secret (sealBuffer secret pt) = .ok (unpad pt) := by
  have hkey : (secret.take 16).length = 16 := List.length_take_of_le hsecret
  have hct := length_ecbEnc hkey hlen
  have hne : ecbEnc (secret.take 16) pt ≠ [] := by
    rwa [← List.length_pos_iff, hct, List.length_pos_iff]
  obtain ⟨tag0, tag1, htag⟩ := List.length_eq_two.1 (length_tag2 secret (ecbEnc (secret.take 16) pt))
  have hseal : sealBuffer secret pt = tag0 :: tag1 :: ecbEnc (secret.take 16) pt :=
    congrArg (· ++ ecbEnc (secret.take 16) pt) htag
  rw [hseal, macDec_of_right_tag hne htag (hct ▸ hlen), ecbDec_ecbEnc hkey hlen]

/-! ### The ends of MACDEC (R190, R199) -/

/-- An accepted MACDEC enters `RUN` and ends there in its outcome. -/
theorem exec_macdec_of_outcome {s : State} {buffer : Bytes} {o : OpOutcome} (hok : okBytes s.params buffer = true)
    (h : acceptedOutcome s.params s.secret? s.phase (.macdec buffer) = o) :
    exec (.macdec buffer) s = .next (s.enterRun.finish o) :=
  h ▸ exec_of_ok hok

theorem exec_macdec_of_ok {s : State} {buffer plain : Bytes} (hok : okBytes s.params buffer = true)
    (hkey : s.keyValid = true) (h : macDec s.key.toList buffer = .ok plain) :
    exec (.macdec buffer) s = .next (s.enterRun.complete (.bytes plain)) :=
  exec_macdec_of_outcome (o := .ok (.bytes plain)) hok (by simp only [acceptedOutcome, State.secret?_of_valid hkey, h])

/-- An error of MACDEC leaves its code, phase `RUN` and the secret as it was (R275). -/
theorem exec_macdec_error_frame {s : State} {buffer : Bytes} {e : CryptoErr} (hok : okBytes s.params buffer = true)
    (hkey : s.keyValid = true) (h : macDec s.key.toList buffer = .error e) :
    ∃ t, exec (.macdec buffer) s = .next t
      ∧ t.status = .err ∧ t.err = errCode (.crypto e) ∧ t.phase = .run ∧ sameContext s t :=
  ⟨_, exec_macdec_of_outcome (o := .err (.crypto e)) hok
      (by simp only [acceptedOutcome, State.secret?_of_valid hkey, h]),
    rfl, rfl, rfl, rfl, rfl, rfl, rfl⟩

/-- Without a secret MACDEC is refused, and has entered `RUN` all the same (R199). -/
theorem exec_macdec_no_key_frame {s : State} {buffer : Bytes} (hok : okBytes s.params buffer = true)
    (hkey : s.keyValid = false) :
    ∃ t, exec (.macdec buffer) s = .next t
      ∧ t.status = .refused ∧ t.err = refuseCode .noKey ∧ t.phase = .run ∧ sameContext s t :=
  ⟨_, exec_macdec_of_outcome (o := .refused .noKey) hok
      (by simp only [acceptedOutcome, State.secret?_of_invalid hkey]),
    rfl, rfl, rfl, rfl, rfl, rfl, rfl⟩

/-! ### The settled obligations -/

/-- Settles O16 (R190, R199): the outcome of `macDec` on each kind of buffer, and the end of the operation in it. -/
theorem macdecSequence : Obligations.MacdecSequence := fun _ =>
  ⟨fun _ _ _ hok hkey hct =>
      ⟨fun htag hlen => exec_macdec_of_ok hok hkey (macDec_of_right_tag hct htag hlen),
        fun htag => exec_macdec_error_frame hok hkey (macDec_of_wrong_tag hct htag),
        fun htag hlen => exec_macdec_error_frame hok hkey (macDec_of_partial_block hct htag hlen)⟩,
    fun _ hok hkey hlen => exec_macdec_error_frame hok hkey (macDec_of_short hlen),
    fun _ hok hkey => exec_macdec_no_key_frame hok hkey⟩

/-- Settles O17 (R200): decryption gives the plaintext back, and `Unpad` changes only one that ends in valid padding or
in a zero. -/
theorem sealedBufferDecrypts : Obligations.SealedBufferDecrypts := by
  intro secret pt hsecret hpt hlen
  have hdec := macDec_sealBuffer (secret := secret) (by omega) hpt hlen
  refine ⟨hdec, fun hzero hpad => ?_⟩
  have hpos := List.length_pos_iff.2 hpt
  rw [hdec, unpad_of_no_padding (by omega) hpad, strip0_of_no_trailing_zero hzero]

/-- Settles O21 (R196): the two branches of `Unpad`. -/
theorem unpadTwoBranches : Obligations.UnpadTwoBranches :=
  fun _ hlen => ⟨fun a _ h1 h16 h => h ▸ unpad_append_padding a h1 h16, unpad_of_no_padding hlen⟩

/-- Settles O22 (R197): the offset is the length of what is left; the byte before it is not zero. -/
theorem strip0RemovesTrailingZeros : Obligations.Strip0RemovesTrailingZeros := by
  intro b
  obtain ⟨k, hb⟩ := exists_eq_strip0_append_zeros b
  have hlast := strip0_ne_append_zero b
  generalize strip0 b = kept at hb hlast
  subst hb
  refine ⟨kept.length, by simp, List.take_left.symm, fun i hi hlt => ?_, fun m' hm' => ?_⟩
  · rw [List.getD_append_right _ _ _ _ hi, List.getD_replicate _ (by simp at hlt; omega)]
  · obtain rfl | ⟨a, x, rfl⟩ := List.eq_nil_or_concat' kept
    · exact Nat.zero_le _
    · by_contra hlt
      have hx := hm' a.length (by simp at hlt; omega) (by simp)
      refine hlast a (congrArg (a ++ [·]) ?_)
      simpa using hx

end Sys2Proof.Machine
end

section
/-! PROOFS. The payload decoders that give a value (R210 to R213, R221 to R230). What PLDECODE and the dispatch rows
have in common is said once, as the end of any instruction that `decodesAs` names (`exec_of_decoded`); each obligation is
then what `decodePayload` answers for its type. -/

namespace Sys2Proof.Machine

/-! ### Little-endian words (R10) -/

/-- A byte put above the bits of a word adds its weight. -/
theorem toNat_or_shiftLeft {v : Word} {k : Nat} (hv : v.toNat < 2 ^ k) (hk : k ≤ 24) (b : Byte) :
    (v ||| b.setWidth 32 <<< k).toNat = v.toNat + 2 ^ k * b.toNat := by
  have hpow : 2 ^ k ≤ 2 ^ 24 := Nat.pow_le_pow_right (by decide) hk
  have hb : 2 ^ k * b.toNat ≤ 2 ^ 24 * 255 := Nat.mul_le_mul hpow (by omega)
  have hshift : (b.setWidth 32 <<< k).toNat = 2 ^ k * b.toNat := by
    rw [BitVec.toNat_shiftLeft, BitVec.toNat_setWidth_of_le (by decide), Nat.shiftLeft_eq, Nat.mul_comm,
      Nat.mod_eq_of_lt (by omega)]
  rw [BitVec.toNat_or, hshift, Nat.or_comm, ← Nat.two_pow_add_eq_or_of_lt hv, Nat.add_comm]

theorem le32_toNat (b : Bytes) :
    (le32 b).toNat = (b.getD 0 0).toNat + 256 * (b.getD 1 0).toNat + 65536 * (b.getD 2 0).toNat
      + 16777216 * (b.getD 3 0).toNat := by
  have h0 : ((b.getD 0 0).setWidth 32).toNat = (b.getD 0 0).toNat := BitVec.toNat_setWidth_of_le (by decide)
  have h1 := toNat_or_shiftLeft (k := 8) (by rw [h0]; omega) (by decide) (b.getD 1 0)
  have h2 := toNat_or_shiftLeft (k := 16) (by rw [h1]; omega) (by decide) (b.getD 2 0)
  have h3 := toNat_or_shiftLeft (k := 24) (by rw [h2]; omega) (by decide) (b.getD 3 0)
  rw [le32]
  omega

theorem getD_slice (b : Bytes) {i j k : Nat} (hk : k < j - i) : (slice b i j).getD k 0 = b.getD (i + k) 0 := by
  simp [slice, hk]

/-- The word that stands at an offset of a byte string. -/
theorem le32_slice_toNat (b : Bytes) {i j : Nat} (h : i + 4 ≤ j) :
    (le32 (slice b i j)).toNat = (b.getD i 0).toNat + 256 * (b.getD (i + 1) 0).toNat
      + 65536 * (b.getD (i + 2) 0).toNat + 16777216 * (b.getD (i + 3) 0).toNat := by
  rw [le32_toNat, getD_slice b (by omega), getD_slice b (by omega), getD_slice b (by omega), getD_slice b (by omega)]
  rfl

/-! ### PLDECODE and the dispatch rows together (R210) -/

theorem okU4_iff {pt : Byte} : okU4 pt = true ↔ pt.toNat ≤ 15 := decide_eq_true_iff

theorem decodesAs_pldecode {ps : Params} {pt : Byte} {t : PType} (h : pt.toNat ≤ 15)
    (ht : ptypeOf ps (pt.setWidth 4) = t) (p : Bytes) : decodesAs ps t (pt.setWidth 4) p (.pldecode pt p) :=
  .inl ⟨pt, h, rfl, ht, rfl⟩

theorem decodesAs_row (ps : Params) (code : BitVec 4) (ver rt : BitVec 2) (p : Bytes) :
    decodesAs ps (ptypeOf Params.default code) code p (hdrRows.get code.toFin ver rt p) :=
  .inr ⟨ver, rt, rfl, rfl⟩

/-- An instruction that decodes a payload as a type performs the dispatch of R210 on it. -/
theorem exec_of_decodesAs {s : State} {t : PType} {code : BitVec 4} {p : Bytes} {i : Instr}
    (hi : decodesAs s.params t code p i) : exec i s = .next (s.dispatchRow t code p) := by
  obtain ⟨pt, hpt, rfl, rfl, rfl⟩ | ⟨ver, rt, rfl, rfl⟩ := hi
  · exact exec_pldecode_eq_dispatchRow (okU4_iff.2 hpt) p s
  · exact exec_hdrRow ver rt code p s

/-- An accepted payload enters `RUN` and ends there as its decoder says. -/
theorem exec_of_decodePayload {s : State} {t : PType} {code : BitVec 4} {p : Bytes} {i : Instr} {o : PayloadOutcome}
    (hi : decodesAs s.params t code p i) (hok : okBytes s.params p = true)
    (h : decodePayload s.secret? t code p = o) : exec i s = .next (s.enterRun.finish (payloadEnd o)) := by
  rw [exec_of_decodesAs hi, State.dispatchRow, State.accept_of_ok hok, State.decodeAs_eq, h]

/-- A payload that its decoder gives a value for completes with that value. -/
theorem exec_of_decoded {s : State} {t : PType} {code : BitVec 4} {p : Bytes} {i : Instr} {d : Decoded}
    (hi : decodesAs s.params t code p i) (hok : okBytes s.params p = true)
    (h : decodePayload s.secret? t code p = .decoded d) :
    exec i s = .next { s with phase := .run, status := .ok, err := 0x00, res := .decoded d } :=
  exec_of_decodePayload hi hok h

/-! ### ADVERT by its length (R212, R213) -/

theorem decodeAdvert_of_short {p : Bytes} (h : p.length < 100) : decodeAdvert p = .malformedTruncated := if_pos h

theorem decodeAdvert_of_long {p : Bytes} (h : 100 ≤ p.length) :
    decodeAdvert p = .decoded (.advert (advertFields (advertPrefix p) (p.drop 100))) :=
  if_neg (Nat.not_lt.2 h)

@[simp] theorem advertFields_nil (r : AdvertRecord) : advertFields r [] = r := rfl

/-- `app_data` gives the optional fields only. -/
theorem advertFields_fixed_part (r : AdvertRecord) (app : Bytes) :
    (advertFields r app).pubKey = r.pubKey ∧ (advertFields r app).timestamp = r.timestamp
      ∧ (advertFields r app).signature = r.signature := by
  cases app with
  | nil => exact ⟨rfl, rfl, rfl⟩
  | cons flags rest => exact ⟨rfl, rfl, rfl⟩

/-! ### Decrypted payloads (R221, R222, R224 to R227) -/

theorem decodeGroup_of_macDec {secret buf plain : Bytes} (h : macDec secret buf = .ok plain) (g : GroupType)
    (hash : Byte) : decodeGroup (some secret) g (hash :: buf) = .decoded (.group g hash plain (groupBodyOf plain)) := by
  obtain ⟨hlen, -⟩ := macDec_eq_ok.1 h
  simp [decodeGroup, h, hlen.le]

theorem decodePeer_of_macDec {secret buf plain : Bytes} (h : macDec secret buf = .ok plain) (t : PeerType)
    (h0 h1 : Byte) :
    decodePeer (some secret) t (h0 :: h1 :: buf) = .decoded (.peer t h0 h1 plain (peerBodyOf t plain)) := by
  obtain ⟨hlen, -⟩ := macDec_eq_ok.1 h
  simp [decodePeer, h, hlen.le]

theorem exec_of_group {s : State} {g : GroupType} {code : BitVec 4} {hash : Byte} {buf plain : Bytes} {i : Instr}
    (hok : okBytes s.params (hash :: buf) = true) (hkey : s.keyValid = true)
    (hdec : macDec s.key.toList buf = .ok plain) (hi : decodesAs s.params (.group g) code (hash :: buf) i) :
    exec i s = .next { s with
      phase := .run, status := .ok, err := 0x00, res := .decoded (.group g hash plain (groupBodyOf plain)) } :=
  exec_of_decoded hi hok (by rw [State.secret?_of_valid hkey]; exact decodeGroup_of_macDec hdec g hash)

theorem exec_of_peer {s : State} {t : PeerType} {code : BitVec 4} {h0 h1 : Byte} {buf plain : Bytes} {i : Instr}
    (hok : okBytes s.params (h0 :: h1 :: buf) = true) (hkey : s.keyValid = true)
    (hdec : macDec s.key.toList buf = .ok plain) (hi : decodesAs s.params (.peer t) code (h0 :: h1 :: buf) i) :
    exec i s = .next { s with
      phase := .run, status := .ok, err := 0x00, res := .decoded (.peer t h0 h1 plain (peerBodyOf t plain)) } :=
  exec_of_decoded hi hok (by rw [State.secret?_of_valid hkey]; exact decodePeer_of_macDec hdec t h0 h1)

/-- The sub-type is bits 7:2 of the flags byte. -/
theorem subType_toNat (flags : Byte) : ((flags >>> 2).setWidth 6 : BitVec 6).toNat = flags.toNat / 4 := by
  revert flags; decide

theorem groupBodyOf_of_short {plain : Bytes} (h : plain.length < 5) : groupBodyOf plain = none := if_pos h

/-- A group plaintext of five bytes or more: the text is there for sub-type 0. -/
theorem groupBodyOf_cons (b0 b1 b2 b3 flags : Byte) (tail : Bytes) :
    groupBodyOf (b0 :: b1 :: b2 :: b3 :: flags :: tail) =
      some { timestamp := le32 [b0, b1, b2, b3], flags := flags, subType := (flags >>> 2).setWidth 6,
             textBytes := if flags.toNat < 4 then some tail else none,
             text := if flags.toNat < 4 then some (utf8Lossy tail) else none } := by
  have hsub : ((flags >>> 2).setWidth 6 : BitVec 6) = 0#6 ↔ flags.toNat < 4 := by
    rw [← BitVec.toNat_inj, subType_toNat]
    simp
  by_cases h : flags.toNat < 4
  · simp [groupBodyOf, slice, hsub.2 h, h]
  · simp [groupBodyOf, slice, mt hsub.1 h, h]

theorem textBodyOf_of_short {plain : Bytes} (h : plain.length < 5) : textBodyOf plain = none := if_pos h

theorem textBodyOf_cons (b0 b1 b2 b3 flags : Byte) (rest : Bytes) :
    textBodyOf (b0 :: b1 :: b2 :: b3 :: flags :: rest) =
      some (.text (le32 [b0, b1, b2, b3]) flags (strip0 rest) (utf8Lossy (strip0 rest))) := rfl

theorem taggedBodyOf_of_short {plain : Bytes} (h : plain.length < 4) : taggedBodyOf plain = none := if_pos h

theorem taggedBodyOf_cons (b0 b1 b2 b3 : Byte) (tail : Bytes) :
    taggedBodyOf (b0 :: b1 :: b2 :: b3 :: tail) = some (.tagged (le32 [b0, b1, b2, b3]) tail) := rfl

/-! ### The settled obligations -/

/-- Settles O26 (R210, R212, R213): the record holds the fixed part, and without `app_data` nothing is added to it. -/
theorem advertDecodesPrefix : Obligations.AdvertDecodesPrefix := by
  intro s p hok hlen
  have hdec (code : BitVec 4) : decodePayload s.secret? .advert code p = _ := decodeAdvert_of_long hlen
  obtain ⟨hkey, htime, hsig⟩ := advertFields_fixed_part (advertPrefix p) (p.drop 100)
  refine ⟨advertFields (advertPrefix p) (p.drop 100),
    fun ver rt => exec_of_decoded (decodesAs_row _ 0x4 ver rt p) hok (hdec _),
    fun pt hpt ht => exec_of_decoded (decodesAs_pldecode hpt ht p) hok (hdec _), hkey, hsig, ?_, fun h100 => ?_⟩
  · rw [htime]
    exact le32_slice_toNat p (i := 32) (by decide)
  · rw [List.drop_eq_nil_of_le h100.le, advertFields_nil]
    exact ⟨rfl, rfl, rfl, rfl, rfl, rfl, rfl, rfl, rfl, rfl⟩

/-- Settles O27 (R210, R212): the decoder's one error, entered as R275 says. -/
theorem advertTruncates : Obligations.AdvertTruncates :=
  fun _ _ _ _ hi hok hlen =>
    ⟨_, exec_of_decodePayload hi hok (decodeAdvert_of_short hlen), rfl, rfl, rfl, rfl, rfl, rfl, rfl⟩

/-- Settles O29 (R210, R221, R222): one body for every instruction, and its fields by the plaintext's first five
bytes. -/
theorem groupPayloadDecodes : Obligations.GroupPayloadDecodes := by
  intro s hash buf plain hok hkey hdec
  refine ⟨groupBodyOf plain, fun ver rt => exec_of_group hok hkey hdec (decodesAs_row _ 0x5 ver rt _),
    fun ver rt => exec_of_group hok hkey hdec (decodesAs_row _ 0x6 ver rt _),
    fun pt g hpt ht => exec_of_group hok hkey hdec (decodesAs_pldecode hpt ht _), groupBodyOf_of_short, ?_⟩
  rintro b0 b1 b2 b3 flags tail rfl
  refine ⟨_, groupBodyOf_cons b0 b1 b2 b3 flags tail, rfl, subType_toNat flags, le32_toNat [b0, b1, b2, b3],
    fun h => ⟨if_pos h, if_pos h⟩, fun h => ⟨if_neg (Nat.not_lt.2 h), if_neg (Nat.not_lt.2 h)⟩⟩

/-- Settles O30 (R210, R224 to R227): the body of each peer type, and its fields by the plaintext's first bytes. -/
theorem peerPayloadDecodes : Obligations.PeerPayloadDecodes := by
  intro s h0 h1 buf plain hok hkey hdec
  refine ⟨textBodyOf plain, taggedBodyOf plain,
    fun ver rt => exec_of_peer hok hkey hdec (decodesAs_row _ 0x2 ver rt _),
    fun ver rt => exec_of_peer hok hkey hdec (decodesAs_row _ 0x0 ver rt _),
    fun ver rt => exec_of_peer hok hkey hdec (decodesAs_row _ 0x1 ver rt _),
    fun ver rt => exec_of_peer hok hkey hdec (decodesAs_row _ 0x8 ver rt _), fun pt t hpt ht => ?_,
    textBodyOf_of_short, taggedBodyOf_of_short, ?_⟩
  · have hexec := exec_of_peer hok hkey hdec (decodesAs_pldecode hpt ht _)
    cases t with
    | txtMsg | req | response | path => exact hexec
  · rintro b0 b1 b2 b3 tail rfl
    refine ⟨le32 [b0, b1, b2, b3], le32_toNat _, taggedBodyOf_cons .., ?_⟩
    rintro flags rest rfl
    exact textBodyOf_cons ..

/-- Settles O32 (R210, R228): the first four bytes as a word, where there are four. -/
theorem ackReportsCrc : Obligations.AckReportsCrc :=
  fun _ p hok =>
    ⟨if 4 ≤ p.length then some (le32 (slice p 0 4)) else none,
      fun ver rt => exec_of_decoded (decodesAs_row _ 0x3 ver rt p) hok rfl,
      fun _ hpt ht => exec_of_decoded (decodesAs_pldecode hpt ht p) hok rfl, fun h => if_neg (Nat.not_le.2 h),
      fun h => ⟨_, if_pos h, le32_slice_toNat p (i := 0) (by decide)⟩⟩

/-- Settles O33 (R210, R229, R230): neither decoder looks at the payload or the secret. -/
theorem opaqueAndUnknownPayloads : Obligations.OpaqueAndUnknownPayloads := by
  intro s p hok answers
  have hrow (code : BitVec 4) (ver rt : BitVec 2) (d : Decoded)
      (hd : decodePayload s.secret? (ptypeOf Params.default code) code p = .decoded d) :
      answers (hdrRows.get code.toFin ver rt p) d := exec_of_decoded (decodesAs_row _ code ver rt p) hok hd
  refine ⟨fun ver rt => ⟨hrow 0xB ver rt _ rfl, hrow 0xF ver rt _ rfl, hrow 0x7 ver rt _ rfl, hrow 0x9 ver rt _ rfl,
      hrow 0xA ver rt _ rfl, hrow 0xC ver rt _ rfl, hrow 0xD ver rt _ rfl, hrow 0xE ver rt _ rfl⟩,
    fun pt o hpt ht => exec_of_decoded (decodesAs_pldecode hpt ht p) hok rfl, fun pt hpt ht => ?_⟩
  rw [BitVec.ofNat_toNat]
  exact exec_of_decoded (decodesAs_pldecode hpt ht p) hok rfl

end Sys2Proof.Machine
end

section
/-! PROOFS. The `app_data` of an ADVERT (R214 to R218, R220): an optional field and the cursor after it in closed form
(`optField_at`), the record by the four reads at one cursor (`advertFields_eq`), and the bytes of each field as
numbers. -/

namespace Sys2Proof.Machine

/-! ### Bits and nibbles of the flags byte (R214 to R218) -/

theorem flagBit_latlon (flags : Byte) : (flags &&& 0x10 != 0) = flags.getLsbD 4 := by revert flags; decide

theorem flagBit_extra1 (flags : Byte) : (flags &&& 0x20 != 0) = flags.getLsbD 5 := by revert flags; decide

theorem flagBit_extra2 (flags : Byte) : (flags &&& 0x40 != 0) = flags.getLsbD 6 := by revert flags; decide

theorem flagBit_name (flags : Byte) : (flags &&& 0x80 != 0) = flags.getLsbD 7 := by revert flags; decide

theorem advertKind_eq (flags : Byte) :
    advertKind flags = match flags.toNat % 16 with
      | 0 => .none | 1 => .chat | 2 => .repeater | 3 => .room | 4 => .sensor | k => .unknown (BitVec.ofNat 4 k) := by
  revert flags; decide

/-! ### Optional fields at the cursor (R215 to R218, R220) -/

/-- An optional field is there, and moves the cursor, exactly when its flag is set and its bytes are there. -/
theorem optField_at (flag : Bool) (n : Nat) (app : Bytes) (pos : Nat) :
    optField flag n ⟨app, pos⟩ =
      (if flag && decide (pos + n ≤ app.length) then some (slice app pos (pos + n)) else none,
        ⟨app, if flag && decide (pos + n ≤ app.length) then pos + n else pos⟩) := by
  cases flag with
  | false => rfl
  | true => by_cases h : pos + n ≤ app.length <;> simp [optField, Cursor.take, h]

theorem optName_at (flag : Bool) (app : Bytes) (pos : Nat) :
    optName flag ⟨app, pos⟩ =
      if flag && decide (pos < app.length) then some ((app.drop pos).takeWhile (· != 0x00)) else none := rfl

/-- The bytes before the first zero byte, and what follows them. -/
theorem takeWhile_ne_zero (b : Bytes) :
    0x00 ∉ b.takeWhile (· != 0x00)
      ∧ (b = b.takeWhile (· != 0x00) ∨ ∃ ignored, b = b.takeWhile (· != 0x00) ++ 0x00 :: ignored) := by
  induction b with
  | nil => simp
  | cons x t ih =>
    obtain ⟨hnot, htail⟩ := ih
    by_cases hx : x = 0x00
    · simp [hx]
    · rw [List.takeWhile_cons_of_pos (by simpa using hx)]
      refine ⟨List.not_mem_cons_of_ne_of_not_mem (Ne.symm hx) hnot, ?_⟩
      simpa using htail

/-- The record by the values and the cursors that the three reads of fixed length answer. -/
theorem advertFields_eq {app rest : Bytes} {flags : Byte} {latlon x1 x2 : Option Bytes} {c1 c2 c3 : Cursor}
    (happ : app = flags :: rest) (hlatlon : optField (flags &&& 0x10 != 0) 8 ⟨app, 1⟩ = (latlon, c1))
    (hx1 : optField (flags &&& 0x20 != 0) 2 c1 = (x1, c2)) (hx2 : optField (flags &&& 0x40 != 0) 2 c2 = (x2, c3))
    (r : AdvertRecord) :
    advertFields r app = { r with
      kind := advertKind flags
      flags := some flags
      latRaw := latlon.map fun b => s32 (le32 (slice b 0 4))
      lonRaw := latlon.map fun b => s32 (le32 (slice b 4 8))
      lat := (latlon.map fun b => s32 (le32 (slice b 0 4))).map divMillion
      lon := (latlon.map fun b => s32 (le32 (slice b 4 8))).map divMillion
      extra1 := x1.map le16
      extra2 := x2.map le16
      nameBytes := optName (flags &&& 0x80 != 0) c3
      name := (optName (flags &&& 0x80 != 0) c3).map utf8Lossy } := by
  subst happ
  simp only [advertFields, hlatlon, hx1, hx2]

/-! ### The fields as numbers (R10) -/

theorem le16_slice (b : Bytes) (i : Nat) :
    le16 (slice b i (i + 2)) = BitVec.ofNat 16 ((b.getD i 0).toNat + 256 * (b.getD (i + 1) 0).toNat) := by
  have h0 : (slice b i (i + 2)).getD 0 0 = b.getD i 0 := getD_slice b (by omega)
  have h1 : (slice b i (i + 2)).getD 1 0 = b.getD (i + 1) 0 := getD_slice b (by omega)
  rw [← h0, ← h1]
  exact le16_eq_ofNat _ _

/-- The word at offset `j` of the field that stands at offset `i`. -/
theorem le32_slice_slice_toNat (b : Bytes) (i : Nat) {j n : Nat} (h : j + 4 ≤ n) :
    (le32 (slice (slice b i (i + n)) j (j + 4))).toNat =
      (b.getD (i + j) 0).toNat + 256 * (b.getD (i + j + 1) 0).toNat + 65536 * (b.getD (i + j + 2) 0).toNat
        + 16777216 * (b.getD (i + j + 3) 0).toNat := by
  rw [le32_slice_toNat _ le_rfl, getD_slice b (by omega), getD_slice b (by omega), getD_slice b (by omega),
    getD_slice b (by omega)]
  rfl

theorem map_ite_some {α β : Type} (c : Bool) (x : α) (f : α → β) :
    (if c then some x else none).map f = if c then some (f x) else none := by
  cases c <;> rfl

/-! ### The settled obligation -/

/-- Settles O28 (R210, R214 to R218, R220): the offsets are the cursors of `optField_at`, and each field is read off the
record of `advertFields_eq`. -/
theorem advertOptionalFields : Obligations.AdvertOptionalFields := by
  intro fixed app flags rest h100 happ
  refine ⟨advertFields (advertPrefix (fixed ++ app)) app, fun s ver rt hok => ?_, ?_⟩
  · refine exec_of_decoded (decodesAs_row _ 0x4 ver rt _) hok ((decodeAdvert_of_long (by simp [h100])).trans ?_)
    rw [List.drop_left' h100]
  · intro g latlon n1 x1 n2 x2 n3 named signed le4 lat lon
    have hlat : s32 (le32 (slice (slice app 1 9) 0 4)) = lat := by
      rw [s32, le32_slice_slice_toNat app 1 (j := 0) (n := 8) (by decide)]
    have hlon : s32 (le32 (slice (slice app 1 9) 4 8)) = lon := by
      rw [s32, le32_slice_slice_toNat app 1 (j := 4) (n := 8) (by decide)]
    have hlatlon : optField (flags &&& 0x10 != 0) 8 ⟨app, 1⟩ =
        (if latlon then some (slice app 1 9) else none, ⟨app, n1⟩) := by
      rw [flagBit_latlon]; exact optField_at ..
    have hx1 : optField (flags &&& 0x20 != 0) 2 ⟨app, n1⟩ =
        (if x1 then some (slice app n1 (n1 + 2)) else none, ⟨app, n2⟩) := by
      rw [flagBit_extra1]; exact optField_at ..
    have hx2 : optField (flags &&& 0x40 != 0) 2 ⟨app, n2⟩ =
        (if x2 then some (slice app n2 (n2 + 2)) else none, ⟨app, n3⟩) := by
      rw [flagBit_extra2]; exact optField_at ..
    have hname : optName (flags &&& 0x80 != 0) ⟨app, n3⟩ =
        if named then some ((app.drop n3).takeWhile (· != 0x00)) else none := by
      rw [flagBit_name]; exact optName_at ..
    rw [advertFields_eq happ hlatlon hx1 hx2, hname]
    refine ⟨rfl, advertKind_eq flags, ?latRaw, ?lonRaw, ?lat, ?lon, ?extra1, ?extra2, fun h => ?unnamed,
      fun h => ?named⟩
    case unnamed => simp [h]
    case named =>
      obtain ⟨hzero, hend⟩ := takeWhile_ne_zero (app.drop n3)
      exact ⟨_, if_pos h, by simp [h], hzero, hend⟩
    all_goals simp only [map_ite_some, hlat, hlon, le16_slice, g]

end Sys2Proof.Machine
end

section
/-! PROOFS. Lossy UTF-8 (R219). `utf8Match` succeeds only where a row of the table matches (`exists_row_of_utf8Match`),
so the scan drops every first byte that no row matches; and it reads the encoding of a scalar value whole
(`utf8Match_encodeChar`). -/

namespace Sys2Proof.Machine

/-! ### Ranges of bytes -/

theorem byteIn_iff {lo hi b : Byte} : byteIn lo hi b = true ↔ lo.toNat ≤ b.toNat ∧ b.toNat ≤ hi.toNat := by
  simp [byteIn]

theorem isCont_iff {b : Byte} : isCont b = true ↔ 0x80 ≤ b.toNat ∧ b.toNat ≤ 0xBF := byteIn_iff

theorem second3_iff {b1 b2 : Byte} :
    second3 b1 b2 = true ↔
      (b1.toNat = 0xE0 → 0xA0 ≤ b2.toNat) ∧ (b1.toNat = 0xED → b2.toNat ≤ 0x9F)
        ∧ 0x80 ≤ b2.toNat ∧ b2.toNat ≤ 0xBF := by
  have he0 : b1 = 0xE0 ↔ b1.toNat = 0xE0 := BitVec.toNat_inj.symm
  have hed : b1 = 0xED ↔ b1.toNat = 0xED := BitVec.toNat_inj.symm
  simp only [second3, he0, hed]
  split_ifs <;> simp [isCont, byteIn_iff] <;> omega

theorem second4_iff {b1 b2 : Byte} :
    second4 b1 b2 = true ↔
      (b1.toNat = 0xF0 → 0x90 ≤ b2.toNat) ∧ (b1.toNat = 0xF4 → b2.toNat ≤ 0x8F)
        ∧ 0x80 ≤ b2.toNat ∧ b2.toNat ≤ 0xBF := by
  have hf0 : b1 = 0xF0 ↔ b1.toNat = 0xF0 := BitVec.toNat_inj.symm
  have hf4 : b1 = 0xF4 ↔ b1.toNat = 0xF4 := BitVec.toNat_inj.symm
  simp only [second4, hf0, hf4]
  split_ifs <;> simp [isCont, byteIn_iff] <;> omega

/-! ### The rows of the table -/

@[simp] theorem utf8RowMatches_nil (b : Bytes) : utf8RowMatches [] b = true := by cases b <;> rfl

theorem utf8RowMatches_cons_cons {r : Nat × Nat} {row : List (Nat × Nat)} {b : Byte} {t : Bytes} :
    utf8RowMatches (r :: row) (b :: t) = true ↔ (r.1 ≤ b.toNat ∧ b.toNat ≤ r.2) ∧ utf8RowMatches row t = true := by
  simp [utf8RowMatches]

/-- A row matches no fewer bytes than it has. -/
theorem length_le_of_utf8RowMatches {row : List (Nat × Nat)} {b : Bytes} (h : utf8RowMatches row b = true) :
    row.length ≤ b.length := by
  induction row generalizing b with
  | nil => exact Nat.zero_le _
  | cons r row ih =>
    cases b with
    | nil => cases h
    | cons x t =>
      obtain ⟨-, h⟩ := utf8RowMatches_cons_cons.1 h
      exact Nat.succ_le_succ (ih h)

theorem utf8RowMatches_three {r1 r2 r3 : Nat × Nat} {b1 b2 b3 : Byte} {t : Bytes} :
    utf8RowMatches [r1, r2, r3] (b1 :: b2 :: b3 :: t) = true ↔
      (r1.1 ≤ b1.toNat ∧ b1.toNat ≤ r1.2) ∧ (r2.1 ≤ b2.toNat ∧ b2.toNat ≤ r2.2)
        ∧ r3.1 ≤ b3.toNat ∧ b3.toNat ≤ r3.2 := by
  simp [utf8RowMatches_cons_cons]

theorem utf8RowMatches_four {r1 r2 r3 r4 : Nat × Nat} {b1 b2 b3 b4 : Byte} {t : Bytes} :
    utf8RowMatches [r1, r2, r3, r4] (b1 :: b2 :: b3 :: b4 :: t) = true ↔
      (r1.1 ≤ b1.toNat ∧ b1.toNat ≤ r1.2) ∧ (r2.1 ≤ b2.toNat ∧ b2.toNat ≤ r2.2)
        ∧ (r3.1 ≤ b3.toNat ∧ b3.toNat ≤ r3.2) ∧ r4.1 ≤ b4.toNat ∧ b4.toNat ≤ r4.2 := by
  simp [utf8RowMatches_cons_cons]

/-- The rows of three bytes, by the first byte. -/
theorem exists_row_of_second3 {b1 b2 b3 : Byte} (h1 : 0xE0 ≤ b1.toNat ∧ b1.toNat ≤ 0xEF) (h2 : second3 b1 b2 = true)
    (h3 : isCont b3 = true) (t : Bytes) : ∃ row ∈ utf8Rows, utf8RowMatches row (b1 :: b2 :: b3 :: t) = true := by
  rw [second3_iff] at h2
  rw [isCont_iff] at h3
  obtain h | h | h | h : b1.toNat = 0xE0 ∨ (0xE1 ≤ b1.toNat ∧ b1.toNat ≤ 0xEC) ∨ 0xEE ≤ b1.toNat ∨ b1.toNat = 0xED := by
    omega
  · exact ⟨[(0xE0, 0xE0), (0xA0, 0xBF), (0x80, 0xBF)], by decide, utf8RowMatches_three.2 (by omega)⟩
  · exact ⟨[(0xE1, 0xEC), (0x80, 0xBF), (0x80, 0xBF)], by decide, utf8RowMatches_three.2 (by omega)⟩
  · exact ⟨[(0xEE, 0xEF), (0x80, 0xBF), (0x80, 0xBF)], by decide, utf8RowMatches_three.2 (by omega)⟩
  · exact ⟨[(0xED, 0xED), (0x80, 0x9F), (0x80, 0xBF)], by decide, utf8RowMatches_three.2 (by omega)⟩

/-- The rows of four bytes, by the first byte. -/
theorem exists_row_of_second4 {b1 b2 b3 b4 : Byte} (h1 : 0xF0 ≤ b1.toNat ∧ b1.toNat ≤ 0xF4)
    (h2 : second4 b1 b2 = true) (h3 : isCont b3 = true) (h4 : isCont b4 = true) (t : Bytes) :
    ∃ row ∈ utf8Rows, utf8RowMatches row (b1 :: b2 :: b3 :: b4 :: t) = true := by
  rw [second4_iff] at h2
  rw [isCont_iff] at h3 h4
  obtain h | h | h : b1.toNat = 0xF0 ∨ (0xF1 ≤ b1.toNat ∧ b1.toNat ≤ 0xF3) ∨ b1.toNat = 0xF4 := by omega
  · exact ⟨[(0xF0, 0xF0), (0x90, 0xBF), (0x80, 0xBF), (0x80, 0xBF)], by decide, utf8RowMatches_four.2 (by omega)⟩
  · exact ⟨[(0xF1, 0xF3), (0x80, 0xBF), (0x80, 0xBF), (0x80, 0xBF)], by decide, utf8RowMatches_four.2 (by omega)⟩
  · exact ⟨[(0xF4, 0xF4), (0x80, 0x8F), (0x80, 0xBF), (0x80, 0xBF)], by decide, utf8RowMatches_four.2 (by omega)⟩

/-- Where `utf8Match` succeeds, a row of the table matches. -/
theorem exists_row_of_utf8Match {b : Bytes} {r : Nat × Nat} (h : utf8Match b = some r) :
    ∃ row ∈ utf8Rows, utf8RowMatches row b = true := by
  unfold utf8Match at h
  split at h
  · cases h
  · split_ifs at h with h1 h2 h3 h4
    · exact ⟨[(0x00, 0x7F)], by decide, utf8RowMatches_cons_cons.2 ⟨byteIn_iff.1 h1, utf8RowMatches_nil _⟩⟩
    · split at h
      · split_ifs at h with hc
        exact ⟨[(0xC2, 0xDF), (0x80, 0xBF)], by decide, utf8RowMatches_cons_cons.2
          ⟨byteIn_iff.1 h2, utf8RowMatches_cons_cons.2 ⟨isCont_iff.1 hc, utf8RowMatches_nil _⟩⟩⟩
      · cases h
    · split at h
      · split_ifs at h with hc
        obtain ⟨hs, hc3⟩ := Bool.and_eq_true_iff.1 hc
        exact exists_row_of_second3 (byteIn_iff.1 h3) hs hc3 _
      · cases h
    · split at h
      · split_ifs at h with hc
        simp only [Bool.and_eq_true] at hc
        obtain ⟨⟨hs, hc3⟩, hc4⟩ := hc
        exact exists_row_of_second4 (byteIn_iff.1 h4) hs hc3 hc4 _
      · cases h

/-- Where no row matches, the scan drops the first byte. -/
theorem utf8Lossy_of_no_row {b : Byte} {t : Bytes} (h : ∀ row ∈ utf8Rows, utf8RowMatches row (b :: t) = false) :
    utf8Lossy (b :: t) = utf8Lossy t := by
  refine utf8Lossy_of_no_match (Option.eq_none_iff_forall_ne_some.2 fun r hr => ?_)
  obtain ⟨row, hrow, hmatch⟩ := exists_row_of_utf8Match hr
  simp [h row hrow] at hmatch

/-! ### Bytes that no row matches -/

/-- No row matches a first byte that begins none, or one whose rows are longer than the bytes that are there. -/
theorem no_row_of_first_byte {b : Byte} {t : Bytes}
    (h : (0x80 ≤ b.toNat ∧ b.toNat ≤ 0xC1) ∨ 0xF5 ≤ b.toNat ∨ (0xC2 ≤ b.toNat ∧ t.length < 1)
      ∨ (0xE0 ≤ b.toNat ∧ t.length < 2) ∨ (0xF0 ≤ b.toNat ∧ t.length < 3)) :
    ∀ row ∈ utf8Rows, utf8RowMatches row (b :: t) = false := by
  intro row hrow
  by_contra hmatch
  rw [Bool.not_eq_false] at hmatch
  have hlen := length_le_of_utf8RowMatches hmatch
  simp only [utf8Rows, List.mem_cons, List.not_mem_nil, or_false] at hrow
  obtain rfl | rfl | rfl | rfl | rfl | rfl | rfl | rfl | rfl := hrow <;>
    (obtain ⟨hfirst, -⟩ := utf8RowMatches_cons_cons.1 hmatch; simp at hfirst hlen; omega)

theorem utf8Lossy_of_stray {b : Byte} (h : (0x80 ≤ b.toNat ∧ b.toNat ≤ 0xC1) ∨ 0xF5 ≤ b.toNat) (t : Bytes) :
    utf8Lossy (b :: t) = utf8Lossy t :=
  utf8Lossy_of_no_row (no_row_of_first_byte (h.imp_right Or.inl))

/-- Continuation bytes without a first byte produce nothing. -/
theorem utf8Lossy_of_isCont {cs : Bytes} (h : ∀ b ∈ cs, isCont b = true) : utf8Lossy cs = [] := by
  induction cs with
  | nil => rfl
  | cons b t ih =>
    have hb := isCont_iff.1 (h b List.mem_cons_self)
    rw [utf8Lossy_of_stray (by omega), ih fun x hx => h x (List.mem_cons_of_mem _ hx)]

/-- A first byte that no row matches produces nothing with the continuation bytes after it. -/
theorem utf8Lossy_cons_of_isCont {b : Byte} {cs : Bytes} (h : utf8Lossy (b :: cs) = utf8Lossy cs)
    (hcs : ∀ x ∈ cs, isCont x = true) : utf8Lossy (b :: cs) = [] :=
  h.trans (utf8Lossy_of_isCont hcs)

/-! ### `utf8Match` by the range of the first byte -/

theorem lowBits_1F (b : Byte) : lowBits 0x1F b = b.toNat % 32 := by revert b; decide

theorem lowBits_0F (b : Byte) : lowBits 0x0F b = b.toNat % 16 := by revert b; decide

theorem lowBits_07 (b : Byte) : lowBits 0x07 b = b.toNat % 8 := by revert b; decide

theorem lowBits_3F (b : Byte) : lowBits 0x3F b = b.toNat % 64 := by revert b; decide

theorem not_byteIn_of_lt {lo hi b : Byte} (h : hi.toNat < b.toNat) : ¬byteIn lo hi b = true :=
  fun hin => absurd (byteIn_iff.1 hin).2 (Nat.not_le.2 h)

theorem utf8Match_one {b1 : Byte} (h : b1.toNat ≤ 0x7F) (t : Bytes) : utf8Match (b1 :: t) = some (b1.toNat, 1) :=
  if_pos (byteIn_iff.2 ⟨Nat.zero_le _, h⟩)

theorem utf8Match_two {b1 : Byte} (h : 0xC2 ≤ b1.toNat ∧ b1.toNat ≤ 0xDF) (b2 : Byte) (t : Bytes) :
    utf8Match (b1 :: b2 :: t) =
      if isCont b2 then some (b1.toNat % 32 * 64 + b2.toNat % 64, 2) else none := by
  have h1 : (0x7F : Byte).toNat < b1.toNat := Nat.lt_of_lt_of_le (by decide) h.1
  have hin : byteIn 0xC2 0xDF b1 = true := byteIn_iff.2 h
  rw [← lowBits_1F, ← lowBits_3F]
  exact (if_neg (not_byteIn_of_lt h1)).trans (if_pos hin)

theorem utf8Match_three {b1 : Byte} (h : 0xE0 ≤ b1.toNat ∧ b1.toNat ≤ 0xEF) (b2 b3 : Byte) (t : Bytes) :
    utf8Match (b1 :: b2 :: b3 :: t) =
      if second3 b1 b2 && isCont b3 then some (b1.toNat % 16 * 4096 + b2.toNat % 64 * 64 + b3.toNat % 64, 3)
      else none := by
  have h1 : (0x7F : Byte).toNat < b1.toNat := Nat.lt_of_lt_of_le (by decide) h.1
  have h2 : (0xDF : Byte).toNat < b1.toNat := Nat.lt_of_lt_of_le (by decide) h.1
  have hin : byteIn 0xE0 0xEF b1 = true := byteIn_iff.2 h
  rw [← lowBits_0F, ← lowBits_3F, ← lowBits_3F]
  exact (if_neg (not_byteIn_of_lt h1)).trans ((if_neg (not_byteIn_of_lt h2)).trans (if_pos hin))

theorem utf8Match_four {b1 : Byte} (h : 0xF0 ≤ b1.toNat ∧ b1.toNat ≤ 0xF4) (b2 b3 b4 : Byte) (t : Bytes) :
    utf8Match (b1 :: b2 :: b3 :: b4 :: t) =
      if second4 b1 b2 && isCont b3 && isCont b4 then
        some (b1.toNat % 8 * 262144 + b2.toNat % 64 * 4096 + b3.toNat % 64 * 64 + b4.toNat % 64, 4)
      else none := by
  have h1 : (0x7F : Byte).toNat < b1.toNat := Nat.lt_of_lt_of_le (by decide) h.1
  have h2 : (0xDF : Byte).toNat < b1.toNat := Nat.lt_of_lt_of_le (by decide) h.1
  have h3 : (0xEF : Byte).toNat < b1.toNat := Nat.lt_of_lt_of_le (by decide) h.1
  have hin : byteIn 0xF0 0xF4 b1 = true := byteIn_iff.2 h
  rw [← lowBits_07, ← lowBits_3F, ← lowBits_3F, ← lowBits_3F]
  exact (if_neg (not_byteIn_of_lt h1)).trans
    ((if_neg (not_byteIn_of_lt h2)).trans ((if_neg (not_byteIn_of_lt h3)).trans (if_pos hin)))

/-! ### The encoding of a scalar value -/

/-- A scalar value is no surrogate, and at most `10FFFF`. -/
theorem toNat_scalar (c : Char) : c.toNat < 0xD800 ∨ 0xDFFF < c.toNat ∧ c.toNat < 0x110000 := c.valid

theorem toNat_contByte (m : Nat) : (BitVec.ofNat 8 (0x80 + m % 64)).toNat = 0x80 + m % 64 := by
  rw [BitVec.toNat_ofNat]; omega

/-- The encoding by its length: the range of the scalar value, and each byte as a number. -/
theorem utf8EncodeChar_cases (c : Char) :
    (∃ b1, utf8EncodeChar c = [b1] ∧ c.toNat < 0x80 ∧ b1.toNat = c.toNat)
      ∨ (∃ b1 b2, utf8EncodeChar c = [b1, b2] ∧ 0x80 ≤ c.toNat ∧ c.toNat < 0x800 ∧ b1.toNat = 0xC0 + c.toNat / 64
          ∧ b2.toNat = 0x80 + c.toNat % 64)
      ∨ (∃ b1 b2 b3, utf8EncodeChar c = [b1, b2, b3] ∧ 0x800 ≤ c.toNat ∧ c.toNat < 0x10000
          ∧ b1.toNat = 0xE0 + c.toNat / 4096 ∧ b2.toNat = 0x80 + c.toNat / 64 % 64 ∧ b3.toNat = 0x80 + c.toNat % 64)
      ∨ (∃ b1 b2 b3 b4, utf8EncodeChar c = [b1, b2, b3, b4] ∧ 0x10000 ≤ c.toNat ∧ c.toNat < 0x110000
          ∧ b1.toNat = 0xF0 + c.toNat / 262144 ∧ b2.toNat = 0x80 + c.toNat / 4096 % 64
          ∧ b3.toNat = 0x80 + c.toNat / 64 % 64 ∧ b4.toNat = 0x80 + c.toNat % 64) := by
  have hscalar := toNat_scalar c
  by_cases h1 : c.toNat < 0x80
  · exact .inl ⟨_, if_pos h1, h1, Nat.mod_eq_of_lt (by omega)⟩
  by_cases h2 : c.toNat < 0x800
  · refine .inr (.inl ⟨_, _, (if_neg h1).trans (if_pos h2), by omega, h2, Nat.mod_eq_of_lt (by omega), ?_⟩)
    exact (toNat_contByte _).trans (by omega)
  by_cases h3 : c.toNat < 0x10000
  · refine .inr (.inr (.inl ⟨_, _, _, (if_neg h1).trans ((if_neg h2).trans (if_pos h3)), by omega, h3,
      Nat.mod_eq_of_lt (by omega), toNat_contByte _, (toNat_contByte _).trans (by omega)⟩))
  · refine .inr (.inr (.inr ⟨_, _, _, _, (if_neg h1).trans ((if_neg h2).trans (if_neg h3)), by omega, by omega,
      Nat.mod_eq_of_lt (by omega), toNat_contByte _, toNat_contByte _, (toNat_contByte _).trans (by omega)⟩))

/-- The table reads the encoding of a scalar value whole, whatever follows. -/
theorem utf8Match_encodeChar (c : Char) (rest : Bytes) :
    utf8Match (utf8EncodeChar c ++ rest) = some (c.toNat, (utf8EncodeChar c).length) := by
  have hscalar := toNat_scalar c
  obtain ⟨b1, he, hc, h1⟩ | ⟨b1, b2, he, hlo, hhi, h1, h2⟩ | ⟨b1, b2, b3, he, hlo, hhi, h1, h2, h3⟩
      | ⟨b1, b2, b3, b4, he, hlo, hhi, h1, h2, h3, h4⟩ := utf8EncodeChar_cases c
  · rw [he, ← h1]
    exact utf8Match_one (by omega) rest
  · have hcont : isCont b2 = true := isCont_iff.2 (by omega)
    have hvalue : b1.toNat % 32 * 64 + b2.toNat % 64 = c.toNat := by omega
    rw [he, ← hvalue]
    exact (utf8Match_two (by omega) b2 rest).trans (if_pos hcont)
  · have hsecond : second3 b1 b2 = true := second3_iff.2 (by omega)
    have hcont : isCont b3 = true := isCont_iff.2 (by omega)
    have hvalue : b1.toNat % 16 * 4096 + b2.toNat % 64 * 64 + b3.toNat % 64 = c.toNat := by omega
    rw [he, ← hvalue]
    exact (utf8Match_three (by omega) b2 b3 rest).trans (if_pos (by rw [hsecond, hcont]; rfl))
  · have hsecond : second4 b1 b2 = true := second4_iff.2 (by omega)
    have hcont3 : isCont b3 = true := isCont_iff.2 (by omega)
    have hcont4 : isCont b4 = true := isCont_iff.2 (by omega)
    have hvalue : b1.toNat % 8 * 262144 + b2.toNat % 64 * 4096 + b3.toNat % 64 * 64 + b4.toNat % 64 = c.toNat := by
      omega
    rw [he, ← hvalue]
    exact (utf8Match_four (by omega) b2 b3 b4 rest).trans (if_pos (by rw [hsecond, hcont3, hcont4]; rfl))

/-- The shape of an encoding: continuation bytes behind a first byte that says how many they are. -/
theorem exists_utf8EncodeChar_eq_cons (c : Char) :
    ∃ b cs, utf8EncodeChar c = b :: cs ∧ (∀ x ∈ cs, isCont x = true)
      ∧ (cs.length = 0 ∨ (cs.length = 1 ∧ 0xC2 ≤ b.toNat) ∨ (cs.length = 2 ∧ 0xE0 ≤ b.toNat)
        ∨ (cs.length = 3 ∧ 0xF0 ≤ b.toNat)) := by
  obtain ⟨b1, he, -, -⟩ | ⟨b1, b2, he, hlo, -, h1, h2⟩ | ⟨b1, b2, b3, he, -, -, h1, h2, h3⟩
      | ⟨b1, b2, b3, b4, he, -, -, h1, h2, h3, h4⟩ := utf8EncodeChar_cases c
  · exact ⟨b1, [], he, by simp, .inl rfl⟩
  · refine ⟨b1, [b2], he, ?_, .inr (.inl ⟨rfl, by omega⟩)⟩
    simp only [List.mem_singleton, forall_eq, isCont_iff]
    omega
  · refine ⟨b1, [b2, b3], he, ?_, .inr (.inr (.inl ⟨rfl, by omega⟩))⟩
    simp only [List.mem_cons, List.not_mem_nil, or_false, forall_eq_or_imp, forall_eq, isCont_iff]
    omega
  · refine ⟨b1, [b2, b3, b4], he, ?_, .inr (.inr (.inr ⟨rfl, by omega⟩))⟩
    simp only [List.mem_cons, List.not_mem_nil, or_false, forall_eq_or_imp, forall_eq, isCont_iff]
    omega

/-! ### The scan -/

/-- The scan passes the bytes of the row just matched. -/
theorem utf8Scan_length_append (a rest : Bytes) : utf8Scan a.length (a ++ rest) = utf8Lossy rest := by
  induction a with
  | nil => rfl
  | cons b t ih => exact ih

theorem utf8Lossy_encodeChar_append (c : Char) (rest : Bytes) :
    utf8Lossy (utf8EncodeChar c ++ rest) = c :: utf8Lossy rest := by
  obtain ⟨b, cs, he, -, -⟩ := exists_utf8EncodeChar_eq_cons c
  have hmatch := utf8Match_encodeChar c rest
  rw [he, List.cons_append] at hmatch ⊢
  rw [utf8Lossy_of_match hmatch, Char.ofNat_toNat]
  exact congrArg _ (utf8Scan_length_append cs rest)

/-- An encoding that is cut short produces nothing. -/
theorem utf8Lossy_take_encodeChar {c : Char} {n : Nat} (hn : n < (utf8EncodeChar c).length) :
    utf8Lossy ((utf8EncodeChar c).take n) = [] := by
  obtain ⟨b, cs, he, hcont, hlen⟩ := exists_utf8EncodeChar_eq_cons c
  rw [he] at hn ⊢
  cases n with
  | zero => rfl
  | succ m =>
    have hshort : (cs.take m).length < cs.length := by simpa using hn
    exact utf8Lossy_cons_of_isCont (utf8Lossy_of_no_row (no_row_of_first_byte (by omega)))
      fun x hx => hcont x (List.mem_of_mem_take hx)

/-- Where the second byte is out of the range that the first one sets, all three bytes are dropped. -/
theorem utf8Lossy_of_not_second3 {b1 b2 b3 : Byte} (h1 : 0xE0 ≤ b1.toNat ∧ b1.toNat ≤ 0xEF)
    (h : ¬second3 b1 b2 = true) (h2 : isCont b2 = true) (h3 : isCont b3 = true) : utf8Lossy [b1, b2, b3] = [] := by
  have hnone : utf8Match [b1, b2, b3] = none := (utf8Match_three h1 b2 b3 []).trans (if_neg (by simp [h]))
  exact utf8Lossy_cons_of_isCont (utf8Lossy_of_no_match hnone) (by simp [h2, h3])

theorem utf8Lossy_of_not_second4 {b1 b2 b3 b4 : Byte} (h1 : 0xF0 ≤ b1.toNat ∧ b1.toNat ≤ 0xF4)
    (h : ¬second4 b1 b2 = true) (h2 : isCont b2 = true) (h3 : isCont b3 = true) (h4 : isCont b4 = true) :
    utf8Lossy [b1, b2, b3, b4] = [] := by
  have hnone : utf8Match [b1, b2, b3, b4] = none := (utf8Match_four h1 b2 b3 b4 []).trans (if_neg (by simp [h]))
  exact utf8Lossy_cons_of_isCont (utf8Lossy_of_no_match hnone) (by simp [h2, h3, h4])

/-! ### The settled obligations -/

/-- Settles O23 (R219), by induction on the text. -/
theorem utf8EncodedTextDecodes : Obligations.Utf8EncodedTextDecodes := by
  intro t rest
  induction t with
  | nil => rfl
  | cons c t ih =>
    calc utf8Lossy (utf8EncodeText (c :: t) ++ rest)
        = utf8Lossy (utf8EncodeChar c ++ (utf8EncodeText t ++ rest)) := by simp [utf8EncodeText]
      _ = c :: utf8Lossy (utf8EncodeText t ++ rest) := utf8Lossy_encodeChar_append c _
      _ = c :: t ++ utf8Lossy rest := by rw [ih]; rfl

/-- Settles O24 (R219): no row matches at the first byte, and what is left is continuation bytes. -/
theorem utf8DropsInvalidBytes : Obligations.Utf8DropsInvalidBytes := by
  refine ⟨fun _ _ => utf8Lossy_of_no_row, fun _ t h => utf8Lossy_of_stray h t, ?overlong3, ?surrogate, ?overlong4,
    ?tooLarge, fun _ _ => utf8Lossy_take_encodeChar⟩
  case overlong3 =>
    intro b2 b3 hlo hhi h3
    have hbad : ¬second3 0xE0 b2 = true := fun h => by
      obtain ⟨hmin, -⟩ := second3_iff.1 h
      exact absurd (hmin rfl) (by omega)
    exact utf8Lossy_of_not_second3 (by decide) hbad (isCont_iff.2 (by omega)) h3
  case surrogate =>
    intro b2 b3 hlo hhi h3
    have hbad : ¬second3 0xED b2 = true := fun h => by
      obtain ⟨-, hmax, -⟩ := second3_iff.1 h
      exact absurd (hmax rfl) (by omega)
    exact utf8Lossy_of_not_second3 (by decide) hbad (isCont_iff.2 (by omega)) h3
  case overlong4 =>
    intro b2 b3 b4 hlo hhi h3 h4
    have hbad : ¬second4 0xF0 b2 = true := fun h => by
      obtain ⟨hmin, -⟩ := second4_iff.1 h
      exact absurd (hmin rfl) (by omega)
    exact utf8Lossy_of_not_second4 (by decide) hbad (isCont_iff.2 (by omega)) h3 h4
  case tooLarge =>
    intro b2 b3 b4 hlo hhi h3 h4
    have hbad : ¬second4 0xF4 b2 = true := fun h => by
      obtain ⟨-, hmax, -⟩ := second4_iff.1 h
      exact absurd (hmax rfl) (by omega)
    exact utf8Lossy_of_not_second4 (by decide) hbad (isCont_iff.2 (by omega)) h3 h4

end Sys2Proof.Machine
end

section
/-! PROOFS. `lat` and `lon` (R215, R232): a raw value divided by one million is the nearest binary64. With the unit in
the last place of the quotient (`f64Unit`), every binary64 is a multiple of that unit or no more than `2^52` of them
(`f64Magnitude_on_grid`), and the model's significand is the quotient in that unit rounded to nearest, ties to even
(`roundedSignificand_nearest`). -/

namespace Sys2Proof.Machine

/-! ### The scale of the quotient -/

theorem scaledLog_bounds {n : Nat} (h : n ≠ 0) :
    2 ^ scaledLog n * 1000000 ≤ n * 2 ^ 40 ∧ n * 2 ^ 40 < 2 ^ (scaledLog n + 1) * 1000000 := by
  have hq : n * 2 ^ 40 / 1000000 ≠ 0 := by omega
  have hlo : 2 ^ scaledLog n ≤ n * 2 ^ 40 / 1000000 := Nat.log2_self_le hq
  have hhi : n * 2 ^ 40 / 1000000 < 2 ^ (scaledLog n + 1) := Nat.lt_log2_self
  exact ⟨(Nat.le_div_iff_mul_le (by decide)).1 hlo, (Nat.div_lt_iff_lt_mul (by decide)).1 hhi⟩

theorem scaledLog_le {n : Nat} (h : n ≠ 0) (hn : n ≤ 2 ^ 31) : scaledLog n ≤ 51 := by
  obtain ⟨hlo, -⟩ := scaledLog_bounds h
  by_contra hgt
  have hpow : 2 ^ 52 ≤ 2 ^ scaledLog n := Nat.pow_le_pow_right (by decide) (by omega)
  omega

/-- The quotient in units of its last place is at least `2^52` and below `2^53`. -/
theorem scaled_bounds {n : Nat} (h : n ≠ 0) (hn : n ≤ 2 ^ 31) :
    2 ^ 52 * 1000000 ≤ n * 2 ^ (92 - scaledLog n) ∧ n * 2 ^ (92 - scaledLog n) < 2 ^ 53 * 1000000 := by
  obtain ⟨hlo, hhi⟩ := scaledLog_bounds h
  have hle := scaledLog_le h hn
  obtain ⟨k, hk⟩ : ∃ k, 52 = scaledLog n + k := ⟨52 - scaledLog n, by omega⟩
  have hexp : 92 - scaledLog n = 40 + k := by omega
  have h52 : 2 ^ 52 = 2 ^ scaledLog n * 2 ^ k := by rw [← pow_add, ← hk]
  have h53 : 2 ^ 53 = 2 ^ (scaledLog n + 1) * 2 ^ k := by rw [← pow_add]; congr 1; omega
  have hpos : 0 < 2 ^ k := Nat.two_pow_pos k
  rw [hexp, h52, h53, pow_add]
  constructor <;> nlinarith

/-! ### The significand -/

/-- The significand is the scaled quotient rounded to nearest, ties to even. -/
theorem roundedSignificand_spec (n : Nat) :
    2 * (roundedSignificand n * 1000000) ≤ 2 * (n * 2 ^ (92 - scaledLog n)) + 1000000
      ∧ 2 * (n * 2 ^ (92 - scaledLog n)) ≤ 2 * (roundedSignificand n * 1000000) + 1000000
      ∧ (2 * (roundedSignificand n * 1000000) = 2 * (n * 2 ^ (92 - scaledLog n)) + 1000000
          ∨ 2 * (n * 2 ^ (92 - scaledLog n)) = 2 * (roundedSignificand n * 1000000) + 1000000 →
        roundedSignificand n % 2 = 0) := by
  unfold roundedSignificand degreeUnits
  generalize n * 2 ^ (92 - scaledLog n) = scaled
  dsimp only
  split_ifs with h <;> omega

theorem roundedSignificand_bounds {n : Nat} (h : n ≠ 0) (hn : n ≤ 2 ^ 31) :
    2 ^ 52 ≤ roundedSignificand n ∧ roundedSignificand n ≤ 2 ^ 53 := by
  obtain ⟨hlo, hhi⟩ := scaled_bounds h hn
  obtain ⟨hup, hdown, -⟩ := roundedSignificand_spec n
  omega

/-! ### Binary64 numbers without their sign -/

/-- The unit in the last place of the exponent field `e`. -/
def f64Unit (e : Nat) : ℚ := 2 ^ e / 2 ^ 1075

theorem f64Unit_pos (e : Nat) : 0 < f64Unit e := by
  unfold f64Unit
  positivity

theorem f64Unit_add (e k : Nat) : f64Unit (e + k) = 2 ^ k * f64Unit e := by
  rw [f64Unit, f64Unit, pow_add, mul_comm (2 ^ e), mul_div_assoc]

theorem f64Unit_le {e e' : Nat} (h : e ≤ e') : f64Unit e ≤ f64Unit e' :=
  div_le_div_of_nonneg_right (pow_le_pow_right₀ one_le_two h) (by positivity)

/-- The absolute value of a binary64 pattern, in units of its last place. -/
def f64Magnitude (b : F64) : ℚ :=
  if b.toNat / 2 ^ 52 % 2 ^ 11 = 0 then (b.toNat % 2 ^ 52 : ℕ) * f64Unit 1
  else (2 ^ 52 + b.toNat % 2 ^ 52 : ℕ) * f64Unit (b.toNat / 2 ^ 52 % 2 ^ 11)

theorem f64Value_eq (b : F64) : f64Value b = if b.toNat ≥ 2 ^ 63 then -f64Magnitude b else f64Magnitude b := by
  have hsub (m : ℚ) : m / 2 ^ 1074 = m * f64Unit 1 := by
    rw [f64Unit, pow_succ 2 1074, pow_one, div_mul_cancel_right₀ two_ne_zero, div_eq_mul_inv]
  simp only [f64Value, f64Magnitude, hsub, f64Unit, mul_div_assoc]

theorem f64Magnitude_nonneg (b : F64) : 0 ≤ f64Magnitude b := by
  unfold f64Magnitude
  split_ifs
  · exact mul_nonneg (Nat.cast_nonneg _) (f64Unit_pos _).le
  · exact mul_nonneg (Nat.cast_nonneg _) (f64Unit_pos _).le

/-- A significand with its exponent field, also where the significand has carried to `2^53`. -/
theorem f64Magnitude_of_fields {b : F64} {e sig : Nat} (he : 1 ≤ e ∧ e ≤ 2045) (hsig : 2 ^ 52 ≤ sig ∧ sig ≤ 2 ^ 53)
    (h : b.toNat % 2 ^ 63 = e * 2 ^ 52 + (sig - 2 ^ 52)) : f64Magnitude b = sig * f64Unit e := by
  obtain ⟨hge, hle⟩ := hsig
  obtain hlt | rfl := hle.lt_or_eq
  · have hexp : b.toNat / 2 ^ 52 % 2 ^ 11 = e := by omega
    have hman : 2 ^ 52 + b.toNat % 2 ^ 52 = sig := by omega
    rw [f64Magnitude, hexp, hman, if_neg (by omega)]
  · have hexp : b.toNat / 2 ^ 52 % 2 ^ 11 = e + 1 := by omega
    have hman : b.toNat % 2 ^ 52 = 0 := by omega
    rw [f64Magnitude, hexp, hman, if_neg (by omega), f64Unit_add]
    norm_num
    ring

/-- Every binary64 is a multiple of the unit of a given normal exponent, or no larger than the least number with that
exponent. -/
theorem f64Magnitude_on_grid (b : F64) {e : Nat} (he : 1 ≤ e) :
    f64Magnitude b ≤ 2 ^ 52 * f64Unit e ∨ ∃ k : ℕ, f64Magnitude b = k * f64Unit e := by
  unfold f64Magnitude
  have hman : b.toNat % 2 ^ 52 < 2 ^ 52 := Nat.mod_lt _ (by decide)
  generalize b.toNat % 2 ^ 52 = m at hman
  generalize b.toNat / 2 ^ 52 % 2 ^ 11 = e'
  split_ifs with h0
  · left
    have hm : (m : ℚ) ≤ 2 ^ 52 := by exact_mod_cast hman.le
    exact mul_le_mul hm (f64Unit_le he) (f64Unit_pos 1).le (by positivity)
  · obtain hlt | hge := lt_or_ge e' e
    · left
      obtain ⟨d, rfl⟩ := Nat.exists_eq_add_of_lt hlt
      have hm : ((2 ^ 52 + m : ℕ) : ℚ) ≤ 2 ^ 52 * 2 := by exact_mod_cast (by omega)
      have hunit : 2 * f64Unit e' ≤ f64Unit (e' + d + 1) := by
        rw [← pow_one (2 : ℚ), ← f64Unit_add]
        exact f64Unit_le (by omega)
      nlinarith [f64Unit_pos e']
    · right
      obtain ⟨d, rfl⟩ := Nat.exists_eq_add_of_le hge
      exact ⟨(2 ^ 52 + m) * 2 ^ d, by rw [f64Unit_add]; push_cast; ring⟩

theorem f64Value_on_grid (b : F64) {e : Nat} (he : 1 ≤ e) :
    (f64Value b ≤ 2 ^ 52 * f64Unit e ∨ ∃ k : ℕ, f64Value b = k * f64Unit e)
      ∧ (-f64Value b ≤ 2 ^ 52 * f64Unit e ∨ ∃ k : ℕ, -f64Value b = k * f64Unit e) := by
  have hgrid := f64Magnitude_on_grid b he
  have hneg : -f64Magnitude b ≤ 2 ^ 52 * f64Unit e := by
    have := f64Magnitude_nonneg b
    have := f64Unit_pos e
    linarith
  rw [f64Value_eq]
  split_ifs
  · exact ⟨.inl hneg, by rwa [neg_neg]⟩
  · exact ⟨hgrid, .inl hneg⟩

/-! ### The nearest number on the grid -/

/-- A multiple of `u` that is within half a unit of `x` is at least as near to `x` as any number `y` that is a multiple
of `u` or lies below `2^52` units; if it is even on a tie, then wherever another such number is as near. -/
theorem nearest_on_grid {x u y : ℚ} {sig : ℕ} (hu : 0 < u) (hlow : 2 ^ 52 * u ≤ x) (hround : |sig * u - x| ≤ u / 2)
    (heven : |sig * u - x| = u / 2 → sig % 2 = 0) (hy : y ≤ 2 ^ 52 * u ∨ ∃ k : ℕ, y = k * u) :
    |sig * u - x| ≤ |y - x| ∧ (|sig * u - x| = |y - x| → y ≠ sig * u → sig % 2 = 0) := by
  have hmultiple (k : ℕ) (hk : k ≠ sig) : u / 2 ≤ |k * u - x| := by
    have hone : (1 : ℚ) ≤ |(k : ℚ) - sig| := by
      have : (1 : ℤ) ≤ |(k : ℤ) - sig| := Int.one_le_abs (by omega)
      exact_mod_cast this
    have hgap : u ≤ |k * u - sig * u| := by
      rw [← sub_mul, abs_mul, abs_of_pos hu]
      nlinarith
    have htri := abs_sub_le (k * u) x (sig * u)
    rw [abs_sub_comm x] at htri
    linarith
  have hbest (k : ℕ) : |sig * u - x| ≤ |k * u - x| := by
    by_cases hk : k = sig
    · rw [hk]
    · exact hround.trans (hmultiple k hk)
  obtain ⟨k, rfl⟩ | hlt : (∃ k : ℕ, y = k * u) ∨ y < 2 ^ 52 * u := by
    obtain hle | hk := hy
    · exact hle.lt_or_eq.symm.imp_left fun h => ⟨2 ^ 52, by exact_mod_cast h⟩
    · exact .inl hk
  · refine ⟨hbest k, fun htie hne => heven (le_antisymm hround ?_)⟩
    rw [htie]
    exact hmultiple k fun hk => hne (by rw [hk])
  · have hfar : |2 ^ 52 * u - x| < |y - x| := by
      rw [abs_of_nonpos (by linarith), abs_of_neg (by linarith)]
      linarith
    have hnear : |sig * u - x| < |y - x| := lt_of_le_of_lt (by exact_mod_cast hbest (2 ^ 52)) hfar
    exact ⟨hnear.le, fun htie => absurd htie hnear.ne⟩

/-! ### The model's quotient -/

theorem magnitudeBits_le {n : Nat} (hn : n ≤ 2 ^ 31) : magnitudeBits n ≤ 1035 * 2 ^ 52 := by
  unfold magnitudeBits
  split_ifs with h
  · decide
  · have hlog := scaledLog_le h hn
    obtain ⟨-, hsig⟩ := roundedSignificand_bounds h hn
    omega

theorem divMillion_toNat {raw : Int} (h : raw.natAbs ≤ 2 ^ 31) :
    (divMillion raw).toNat = (if raw < 0 then 2 ^ 63 else 0) + magnitudeBits raw.natAbs := by
  have hle := magnitudeBits_le h
  rw [divMillion, BitVec.toNat_ofNat]
  split_ifs <;> omega

/-- The value of the model's quotient: the significand in units of its last place, with the sign of the raw value. -/
theorem f64Value_divMillion {raw : Int} (h0 : raw ≠ 0) (h : raw.natAbs ≤ 2 ^ 31) :
    f64Value (divMillion raw) =
      if raw < 0 then -(roundedSignificand raw.natAbs * f64Unit (scaledLog raw.natAbs + 983))
      else roundedSignificand raw.natAbs * f64Unit (scaledLog raw.natAbs + 983) := by
  have hn0 : raw.natAbs ≠ 0 := Int.natAbs_ne_zero.2 h0
  have hlog := scaledLog_le hn0 h
  have hsig := roundedSignificand_bounds hn0 h
  have hbits := divMillion_toNat h
  have hle := magnitudeBits_le h
  have hmag : f64Magnitude (divMillion raw) = roundedSignificand raw.natAbs * f64Unit (scaledLog raw.natAbs + 983) := by
    refine f64Magnitude_of_fields (by omega) hsig ?_
    rw [magnitudeBits, if_neg hn0] at hbits hle
    split_ifs at hbits <;> omega
  have hsign : (divMillion raw).toNat ≥ 2 ^ 63 ↔ raw < 0 := by split_ifs at hbits <;> omega
  simp only [f64Value_eq, hmag, hsign]

theorem f64Finite_divMillion {raw : Int} (h : raw.natAbs ≤ 2 ^ 31) : f64Finite (divMillion raw) = true := by
  have hle := magnitudeBits_le h
  have hexp : (divMillion raw).toNat / 2 ^ 52 % 2 ^ 11 ≠ 2 ^ 11 - 1 := by
    rw [divMillion_toNat h]
    split_ifs <;> omega
  simpa [f64Finite] using hexp

/-- The last bit of the pattern is the last bit of the significand. -/
theorem divMillion_getLsbD_zero {raw : Int} (h0 : raw ≠ 0) (h : raw.natAbs ≤ 2 ^ 31)
    (heven : roundedSignificand raw.natAbs % 2 = 0) : (divMillion raw).getLsbD 0 = false := by
  have hn0 : raw.natAbs ≠ 0 := Int.natAbs_ne_zero.2 h0
  have hsig := roundedSignificand_bounds hn0 h
  have hbits := divMillion_toNat h
  rw [magnitudeBits, if_neg hn0] at hbits
  rw [BitVec.getLsbD, Nat.testBit_zero, decide_eq_false_iff_not]
  split_ifs at hbits <;> omega

theorem f64Value_divMillion_zero : f64Value (divMillion 0) = 0 := by
  simp [f64Value, divMillion, magnitudeBits]

/-- The exact quotient in units of the last place of the model's. -/
theorem quotient_eq {n : Nat} (hlog : scaledLog n ≤ 51) :
    (n : ℚ) / 1000000 = (n * 2 ^ (92 - scaledLog n) : ℕ) / 1000000 * f64Unit (scaledLog n + 983) := by
  have hunit : f64Unit 983 * 2 ^ 92 = 1 := by
    rw [mul_comm, ← f64Unit_add, f64Unit]
    exact div_self (pow_ne_zero _ two_ne_zero)
  have hpow : (2 : ℚ) ^ (92 - scaledLog n) * 2 ^ scaledLog n = 2 ^ 92 := by
    rw [← pow_add, Nat.sub_add_cancel (by omega)]
  calc (n : ℚ) / 1000000
      = n / 1000000 * (f64Unit 983 * (2 ^ (92 - scaledLog n) * 2 ^ scaledLog n)) := by rw [hpow, hunit, mul_one]
    _ = (n * 2 ^ (92 - scaledLog n) : ℕ) / 1000000 * f64Unit (scaledLog n + 983) := by
      rw [Nat.add_comm, f64Unit_add]
      push_cast
      ring

/-- A whole number within half of a quotient `a / d`, as a distance of rationals in units `u`. -/
theorem abs_sub_le_half_unit {u : ℚ} (hu : 0 < u) {sig a d : ℕ} (hd : 0 < d) (hup : 2 * (sig * d) ≤ 2 * a + d)
    (hdown : 2 * a ≤ 2 * (sig * d) + d) :
    |sig * u - a / d * u| ≤ u / 2
      ∧ (|sig * u - a / d * u| = u / 2 → 2 * (sig * d) = 2 * a + d ∨ 2 * a = 2 * (sig * d) + d) := by
  have hd' : (0 : ℚ) < d := by exact_mod_cast hd
  have hup' : (2 : ℚ) * (sig * d) ≤ 2 * a + d := by exact_mod_cast hup
  have hdown' : (2 : ℚ) * a ≤ 2 * (sig * d) + d := by exact_mod_cast hdown
  have hdist : |sig * u - a / d * u| = |2 * ((sig : ℚ) * d) - 2 * a| * (u / (2 * d)) := by
    rw [← abs_of_pos (show 0 < u / (2 * d) by positivity), ← abs_mul]
    congr 1
    field_simp
  have hhalf : u / 2 = d * (u / (2 * d)) := by field_simp
  have hpos : 0 < u / (2 * d) := by positivity
  rw [hdist, hhalf]
  refine ⟨mul_le_mul_of_nonneg_right (abs_le.2 ⟨by linarith, by linarith⟩) hpos.le, fun heq => ?_⟩
  obtain h | h := eq_or_eq_neg_of_abs_eq (mul_right_cancel₀ hpos.ne' heq)
  · left
    exact_mod_cast (by linarith : (2 : ℚ) * (sig * d) = 2 * a + d)
  · right
    exact_mod_cast (by linarith : (2 : ℚ) * a = 2 * (sig * d) + d)

/-- The model's significand against the exact quotient: within half a unit of the last place, and even on a tie. -/
theorem roundedSignificand_nearest {n : Nat} (h : n ≠ 0) (hn : n ≤ 2 ^ 31) :
    2 ^ 52 * f64Unit (scaledLog n + 983) ≤ n / 1000000
      ∧ |roundedSignificand n * f64Unit (scaledLog n + 983) - n / 1000000| ≤ f64Unit (scaledLog n + 983) / 2
      ∧ (|roundedSignificand n * f64Unit (scaledLog n + 983) - n / 1000000| = f64Unit (scaledLog n + 983) / 2 →
          roundedSignificand n % 2 = 0) := by
  have hu := f64Unit_pos (scaledLog n + 983)
  obtain ⟨hlow, -⟩ := scaled_bounds h hn
  obtain ⟨hup, hdown, heven⟩ := roundedSignificand_spec n
  obtain ⟨hround, htie⟩ := abs_sub_le_half_unit hu (d := 1000000) (by decide) hup hdown
  rw [quotient_eq (scaledLog_le h hn)]
  refine ⟨mul_le_mul_of_nonneg_right ?_ hu.le, hround, fun heq => heven (htie heq)⟩
  rw [le_div_iff₀ (by norm_num)]
  exact_mod_cast hlow

/-! ### The settled obligation -/

/-- Settles O25 (R232): zero is exact, and for any other raw value the model's number is nearest on the grid of its own
unit in the last place; a negative value is the mirror image of a positive one. -/
theorem degreesAreNearestBinary64 : Obligations.DegreesAreNearestBinary64 := by
  intro raw hlo hhi
  have hle : raw.natAbs ≤ 2 ^ 31 := by omega
  refine ⟨f64Finite_divMillion hle, fun b _ => ?_⟩
  obtain rfl | h0 := eq_or_ne raw 0
  · rw [f64Value_divMillion_zero]
    refine ⟨by simp, fun htie hne => absurd ?_ hne⟩
    simpa using htie.symm
  · obtain ⟨hlow, hround, heven⟩ := roundedSignificand_nearest (Int.natAbs_ne_zero.2 h0) hle
    have hu := f64Unit_pos (scaledLog raw.natAbs + 983)
    obtain ⟨hgrid, hgridNeg⟩ := f64Value_on_grid b (e := scaledLog raw.natAbs + 983) (by omega)
    rw [f64Value_divMillion h0 hle]
    split_ifs with hsign
    · have hraw : (raw : ℚ) = -(raw.natAbs : ℚ) := by
        rw [← Int.cast_natCast, Int.ofNat_natAbs_of_nonpos hsign.le, Int.cast_neg, neg_neg]
      have hmirror (v : ℚ) : |v - raw / 1000000| = |-v - raw.natAbs / 1000000| := by
        rw [hraw, ← abs_neg]
        congr 1
        ring
      obtain ⟨hbest, htie⟩ := nearest_on_grid hu hlow hround heven hgridNeg
      rw [hmirror, hmirror, neg_neg]
      exact ⟨hbest, fun heq hne => divMillion_getLsbD_zero h0 hle (htie heq fun h => hne (neg_eq_iff_eq_neg.1 h))⟩
    · have hraw : (raw : ℚ) = raw.natAbs := by
        rw [← Int.cast_natCast, Int.natAbs_of_nonneg (not_lt.1 hsign)]
      obtain ⟨hbest, htie⟩ := nearest_on_grid hu hlow hround heven hgrid
      rw [hraw]
      exact ⟨hbest, fun heq hne => divMillion_getLsbD_zero h0 hle (htie heq hne)⟩

end Sys2Proof.Machine
end

section
/-! PROOFS. The system operations NOP, SETKEY and the composites TXFRAME and RXFRAME (R250 to R253), and what is turned
away before an operation begins (R254 to R256): a malformed operand and an unassigned opcode. RXFRAME ends with the
first error of its three stages, and otherwise with the packet and the end of PLDECODE on it
(`exec_rxframe_of_ok`, `exec_pldecode_of_code`). -/

namespace Sys2Proof.Machine

/-! ### What is turned away (R254, R256) -/

theorem operandsOk_eq_false_iff {ps : Params} {i : Instr} : operandsOk ps i = false ↔ malformed ps i := by
  rw [← Bool.not_eq_true, operandsOk_iff, not_not]

/-- The result registers hold `Refused(BadOperand)` exactly after that outcome. -/
theorem State.finish_badOperand_iff (o : OpOutcome) (s : State) :
    ((s.finish o).status = .refused ∧ (s.finish o).err = 0xF4) ↔ o = .refused .badOperand := by
  cases o with
  | ok | err | undecryptable => simp
  | refused r => cases r <;> simp [refuseCode]

/-- A payload's outcome is no refusal (R210). -/
theorem payloadEnd_ne_refused (po : PayloadOutcome) (r : RefuseReason) : payloadEnd po ≠ .refused r := by
  cases po <;> nofun

/-- An accepted instruction may be refused for the phase or the missing secret, but not for its operands. -/
theorem acceptedOutcome_ne_badOperand (ps : Params) (secret? : Option Bytes) (phase : Phase) (i : Instr) :
    acceptedOutcome ps secret? phase i ≠ .refused .badOperand := by
  cases i with
  | nop | cksum | wrap | pencode | pencodex | txframe => nofun
  | ack | control | rawCustom | unknown7 | unknown9 | unknownA | unknownC | unknownD | unknownE => nofun
  | unwrap | pdecode | rxframe => simp only [acceptedOutcome]; split <;> nofun
  | macdec =>
    simp only [acceptedOutcome]
    split
    · nofun
    · split <;> nofun
  | setkey => cases phase <;> nofun
  | pldecode | req | response | txtMsg | path | advert | grpTxt | grpData => exact payloadEnd_ne_refused _ _

/-! ### SETKEY (R250) -/

theorem exec_setkey_of_ok {s : State} {k : Bytes} (h : okBytes s.params k = true) :
    exec (.setkey k) s = .next (s.setKey k) := by
  rw [State.setKey_eq_perform]
  exact exec_of_ok h

theorem State.setKey_of_config {s : State} (h : s.phase = .config) (k : Bytes) :
    s.setKey k = (s.installKey k).complete .nothing := by
  rw [State.setKey, h]

theorem State.setKey_of_run {s : State} (h : s.phase = .run) (k : Bytes) : s.setKey k = s.refuse .keyLocked := by
  rw [State.setKey, h]

/-! ### PDECODE and PLDECODE, which RXFRAME's later stages are compared with (R140, R210, R252) -/

theorem okBytes_of_unbounded {ps : Params} (h : ps.maxLen = none) (b : Bytes) : okBytes ps b = true := by
  rw [okBytes, h]

/-- An error of PDECODE, entered as R275 says. -/
theorem exec_pdecode_of_error {s : State} {body : Bytes} {e : PacketErr} (hok : okBytes s.params body = true)
    (h : pdecode body = .error e) : exec (.pdecode body) s = .next (s.enterRun.finish (.err (.packet e))) :=
  exec_pdecode_of_outcome hok (by rw [acceptedOutcome, h])

/-- A payload type code is an operand in range, under which PLDECODE ends as the payload's decoder says. -/
theorem exec_pldecode_of_code {s : State} {p : Bytes} (hok : okBytes s.params p = true) (code : BitVec 4) :
    exec (.pldecode (code.setWidth 8) p) s
      = .next (s.enterRun.finish (payloadEnd (decodePayload s.secret? (ptypeOf s.params code) code p))) := by
  have hcode : (code.setWidth 8).setWidth 4 = code := by simp
  have hi : decodesAs s.params (ptypeOf s.params code) code p (.pldecode (code.setWidth 8) p) :=
    .inl ⟨_, setWidth8_toNat_le code, hcode, rfl, rfl⟩
  exact exec_of_decodePayload hi hok rfl

/-! ### RXFRAME by its stages (R252) -/

/-- The outcome of a packet's payload under a state's table and secret. -/
def State.payloadOutcome (s : State) (p : Packet) : PayloadOutcome :=
  decodePayload s.secret? (ptypeOf s.params p.payloadType) p.payloadType p.payload

theorem rxframe_of_unwrap_error {ps : Params} {secret? : Option Bytes} {raw : Bytes} {e : FrameErr}
    (h : unwrap raw = .error e) : rxframe ps secret? raw = .error (.frame e) := by
  simp only [rxframe, h]

theorem rxframe_of_pdecode_error {ps : Params} {secret? : Option Bytes} {raw body : Bytes} {e : PacketErr}
    (hu : unwrap raw = .ok body) (hp : pdecode body = .error e) :
    rxframe ps secret? raw = .error (.packet e) := by
  simp only [rxframe, hu, hp]

theorem rxframe_of_packet {s : State} {raw body : Bytes} {p : Packet} (hu : unwrap raw = .ok body)
    (hp : pdecode body = .ok p) : rxframe s.params s.secret? raw = .ok (p, s.payloadOutcome p) := by
  simp only [rxframe, hu, hp, State.payloadOutcome]

/-- An accepted RXFRAME enters `RUN` and ends there in its outcome. -/
theorem exec_rxframe_of_outcome {s : State} {raw : Bytes} {o : OpOutcome} (hok : okBytes s.params raw = true)
    (h : acceptedOutcome s.params s.secret? s.phase (.rxframe raw) = o) :
    exec (.rxframe raw) s = .next (s.enterRun.finish o) :=
  h ▸ exec_of_ok hok

theorem exec_rxframe_of_error {s : State} {raw : Bytes} {e : Err} (hok : okBytes s.params raw = true)
    (h : rxframe s.params s.secret? raw = .error e) :
    exec (.rxframe raw) s = .next (s.enterRun.finish (.err e)) :=
  exec_rxframe_of_outcome hok (by rw [acceptedOutcome, h])

/-- Whatever becomes of the payload, a frame that carries a packet is received. -/
theorem exec_rxframe_of_ok {s : State} {raw body : Bytes} {p : Packet} (hok : okBytes s.params raw = true)
    (hu : unwrap raw = .ok body) (hp : pdecode body = .ok p) :
    exec (.rxframe raw) s = .next (s.enterRun.finish (.ok (.received p (s.payloadOutcome p)))) :=
  exec_rxframe_of_outcome hok (by rw [acceptedOutcome, rxframe_of_packet hu hp])

/-- The three ways PLDECODE ends a payload, beside the same outcome inside RXFRAME's result (R252). -/
theorem delivered_cases {w t : State} {p : Packet} {po : PayloadOutcome}
    (hw : w.lastOutcome = some (payloadEnd po)) (ht : t.lastOutcome = some (.ok (.received p po))) :
    (∃ d, w.lastOutcome = some (.ok (.decoded d)) ∧ t.lastOutcome = some (.ok (.received p (.decoded d))))
      ∨ (w.lastOutcome = some (.err (.packet .truncated))
          ∧ t.lastOutcome = some (.ok (.received p .malformedTruncated)))
      ∨ (∃ r c, w.lastOutcome = some (.undecryptable r c)
          ∧ t.lastOutcome = some (.ok (.received p (.undecryptable r c)))) := by
  cases po with
  | decoded d => exact .inl ⟨d, hw, ht⟩
  | malformedTruncated => exact .inr (.inl ⟨hw, ht⟩)
  | undecryptable r c => exact .inr (.inr ⟨r, c, hw, ht⟩)

/-! ### The settled obligations -/

/-- Settles O35 (R251): the opcode byte `0x00` is all there is of NOP, whose end is `State.complete`. -/
theorem nopCompletes : Obligations.NopCompletes :=
  ⟨fun _ => decodeCommand_eq_ok.2 ⟨rfl, rfl⟩, fun _ => exec_of_ok (i := .nop) rfl⟩

/-- Settles O36 (R250): SETKEY by its phase, and the bytes that `padKey` makes of the operand. -/
theorem setkeyInstallsSecret : Obligations.SetkeyInstallsSecret := by
  intro s k hok
  constructor
  · intro hp
    refine ⟨padKey k, ?_, fun i h => ?_⟩
    · rw [exec_setkey_of_ok hok, State.setKey_of_config hp]
      rfl
    · rw [padKey_getElem k i h]
      split_ifs with hlt
      · rw [List.getD_eq_getElem _ _ hlt, List.getD_eq_getElem _ _ hlt]
      · exact List.getD_eq_default _ _ (not_lt.1 hlt)
  · intro hp
    refine ⟨s.refuse .keyLocked, ?_, rfl, rfl, hp, rfl, rfl, rfl, rfl⟩
    rw [exec_setkey_of_ok hok, State.setKey_of_run hp]

/-- Settles O50 (R255): the decoder has no operands for the opcode, and the step records its rejection. -/
theorem unassignedOpcodeRefused : Obligations.UnassignedOpcodeRefused := by
  intro s op t q hop hs
  have hd : decodeCommand (op :: t) = .error .unknownOpcode := decodeCommand_eq_unknownOpcode.2 hop
  exact ⟨_, step_stream_error hs (List.cons_ne_nil op t) hd, rfl, rfl, rfl, rfl, rfl, rfl, rfl⟩

/-- Settles O37 (R254, R256): the operand test turns away the malformed operands, and past it no instruction ends in
`BadOperand`. -/
theorem malformedOperandsRefused : Obligations.MalformedOperandsRefused := by
  intro i s
  obtain ⟨hok, he⟩ | ⟨hbad, he⟩ := exec_cases i s
  · have hwf : ¬malformed s.params i := operandsOk_iff.1 hok
    refine ⟨_, he, iff_of_false hwf fun hend => ?_, fun hmal => absurd hmal hwf⟩
    exact acceptedOutcome_ne_badOperand _ _ _ i ((State.finish_badOperand_iff _ _).1 hend)
  · have hmal : malformed s.params i := operandsOk_eq_false_iff.1 hbad
    exact ⟨_, he, iff_of_true hmal ⟨rfl, rfl⟩, fun _ => ⟨rfl, rfl, rfl, rfl, rfl⟩⟩

/-- Settles O13 (R253): WRAP of PENCODE's body, whose two stages of RXFRAME are the round trips of R132 and R148 with
`hi = 0`. -/
theorem txframeBuildsFrame : Obligations.TxframeBuildsFrame := by
  intro s rt pt path payload hpt hlen hpath hpayload
  have hbody : pencode rt pt path payload = _ := pencode_eq rt hpt path payload
  have hparse := pdecode_pencodex (rt := rt) (hi := 0) (tc := none) hpt (by decide) rfl hlen payload
  rw [← pencode_eq_pencodex] at hparse
  refine ⟨wrap (pencode rt pt path payload), pencode rt pt path payload, _,
    exec_of_ok (i := .txframe rt pt path payload) (okPencode_iff.2 ⟨hpt, hlen, hpath, hpayload⟩), hbody, wrap_eq _, ?_,
    unwrap_wrap _, hparse, ?_, ?_, hdrPayloadVersion_hdrByte .., rfl, rfl, rfl⟩
  · simp only [wrap, hbody, bodyBytes, tcBytes, List.length_append, List.length_cons, List.length_nil]
    omega
  · simp only [packetOf, hdrRouteType_hdrByte, BitVec.toNat_setWidth]
  · simp only [packetOf, hdrPayloadType_hdrByte, setWidth4_toNat hpt]

/-- Settles O14 (R252): the payload's outcome is that of its decoder, which reads the table and the secret alone. -/
theorem rxframeDelivers : Obligations.RxframeDelivers := by
  intro s raw body p hok hu hp
  refine ⟨s.payloadOutcome p, exec_rxframe_of_ok hok hu hp, fun s' hps hsecret => ?_⟩
  have hsame : s'.payloadOutcome p = s.payloadOutcome p := by
    rw [State.payloadOutcome, hps, hsecret]
    rfl
  refine ⟨_, exec_pldecode_of_code (okBytes_of_unbounded (by rw [hps]) _) p.payloadType, ?_⟩
  rw [← hsame]
  exact State.lastOutcome_finish _ _

/-- Settles O15 (R252 (a), R279): the stages in order, each performed where the one before it has ended without an
error, in a state with the same table and secret. -/
theorem rxframeIsItsParts : Obligations.RxframeIsItsParts := by
  intro s raw hmax
  have hok (b : Bytes) : okBytes s.params b = true := okBytes_of_unbounded hmax b
  match hu : unwrap raw with
  | .error e =>
    exact ⟨_, _, exec_rxframe_of_error (hok raw) (rxframe_of_unwrap_error hu), exec_unwrap_of_error (hok raw) hu,
      .inl ⟨.frame e, State.lastOutcome_finish (.err _) _, State.lastOutcome_finish _ _⟩⟩
  | .ok body =>
    have hunwrap := exec_unwrap_of_ok (hok raw) hu
    match hp : pdecode body with
    | .error e =>
      have hpdecode := exec_pdecode_of_error (s := s.enterRun.complete (.bytes body)) (hok body) hp
      exact ⟨_, _, exec_rxframe_of_error (hok raw) (rxframe_of_pdecode_error hu hp), hunwrap,
        .inr ⟨body, _, rfl, hpdecode, .inl ⟨.packet e, State.lastOutcome_finish _ _, State.lastOutcome_finish _ _⟩⟩⟩
    | .ok p =>
      have hpdecode := exec_pdecode_of_ok (s := s.enterRun.complete (.bytes body)) (hok body) hp
      have hpldecode := exec_pldecode_of_code
        (s := (s.enterRun.complete (.bytes body)).enterRun.complete (.packet p)) (hok p.payload) p.payloadType
      exact ⟨_, _, exec_rxframe_of_ok (hok raw) hu hp, hunwrap, .inr ⟨body, _, rfl, hpdecode, .inr ⟨p, _, rfl,
        hpldecode, delivered_cases (State.lastOutcome_finish _ _) (State.lastOutcome_finish _ _)⟩⟩⟩

end Sys2Proof.Machine
end

section
/-! PROOFS. The four ends of an instruction (R270 to R275). An accepted instruction leaves the `STATUS` of its outcome,
so each column of R273 is a statement about which instruction has an outcome of that kind: an error
(`errCode_of_acceptedOutcome`), an undecryptable payload (`exists_decodesAs_of_undecryptable`) or a refusal
(`acceptedOutcome_eq_refused`). An encrypted payload fails in one way for group and peer types alike, by the number of
its hash bytes. -/

namespace Sys2Proof.Machine

/-! ### The registers that an instruction leaves -/

/-- What an instruction that has ended has done. -/
theorem exec_eq_next {i : Instr} {s u : State} (h : exec i s = .next u) :
    (operandsOk s.params i = true ∧ u = s.perform i)
      ∨ (operandsOk s.params i = false ∧ u = s.refuse .badOperand) := by
  obtain ⟨hok, he⟩ | ⟨hbad, he⟩ := exec_cases i s <;> rw [he] at h <;> cases h
  · exact .inl ⟨hok, rfl⟩
  · exact .inr ⟨hbad, rfl⟩

@[simp] theorem State.perform_status (i : Instr) (s : State) :
    (s.perform i).status = outcomeStatus (acceptedOutcome s.params s.secret? s.phase i) := State.finish_status ..

@[simp] theorem State.perform_err (i : Instr) (s : State) :
    (s.perform i).err = outcomeErr (acceptedOutcome s.params s.secret? s.phase i) := State.finish_err_code ..

theorem outcomeStatus_eq_err {o : OpOutcome} : outcomeStatus o = .err ↔ ∃ e, o = .err e := by
  cases o <;> simp [outcomeStatus]

theorem outcomeStatus_eq_undec {o : OpOutcome} : outcomeStatus o = .undec ↔ ∃ r c, o = .undecryptable r c := by
  cases o <;> simp [outcomeStatus]

/-! ### The ends of a payload (R210, R271) -/

theorem payloadEnd_eq_err {po : PayloadOutcome} {e : Err} :
    payloadEnd po = .err e ↔ po = .malformedTruncated ∧ e = .packet .truncated := by
  cases po <;> simp [payloadEnd, eq_comm]

theorem payloadEnd_eq_undecryptable {po : PayloadOutcome} {r : UndecReason} {c : Bytes} :
    payloadEnd po = .undecryptable r c ↔ po = .undecryptable r c := by
  cases po <;> simp [payloadEnd]

/-- The decoder of an encrypted payload has no error (R221, R224). -/
theorem decodePayload_ne_malformed_of_hashBytes {t : PType} {n : Nat} (h : hashBytes t = some n)
    (secret? : Option Bytes) (code : BitVec 4) (p : Bytes) :
    decodePayload secret? t code p ≠ .malformedTruncated := by
  cases t with
  | group g =>
    obtain ⟨-, h⟩ | ⟨_, -, -, h⟩ | ⟨_, _, -, -, -, h⟩ | ⟨_, _, -, -, -, h⟩ := decodeGroup_cases secret? g p <;>
      simp [decodePayload, h]
  | peer r =>
    obtain ⟨-, h⟩ | ⟨_, -, -, h⟩ | ⟨_, _, -, -, -, h⟩ | ⟨_, _, -, -, -, h⟩ := decodePeer_cases secret? r p <;>
      simp [decodePayload, h]
  | advert | ack | opaq | unknown => cases h

/-- The one error of a payload is a short ADVERT (R212). -/
theorem advert_of_payloadEnd_err {secret? : Option Bytes} {t : PType} {code : BitVec 4} {p : Bytes} {e : Err}
    (h : payloadEnd (decodePayload secret? t code p) = .err e) : t = .advert ∧ e = .packet .truncated := by
  obtain ⟨hpo, he⟩ := payloadEnd_eq_err.1 h
  cases t with
  | advert => exact ⟨rfl, he⟩
  | group | peer => exact absurd hpo (decodePayload_ne_malformed_of_hashBytes rfl _ _ _)
  | ack | opaq | unknown => cases hpo

/-- Only a payload with hash bytes before its cipher buffer can be undecryptable. -/
theorem hashBytes_of_payloadEnd_undecryptable {secret? : Option Bytes} {t : PType} {code : BitVec 4} {p c : Bytes}
    {r : UndecReason} (h : payloadEnd (decodePayload secret? t code p) = .undecryptable r c) :
    ∃ n, hashBytes t = some n := by
  cases t with
  | group | peer => exact ⟨_, rfl⟩
  | advert =>
    rw [payloadEnd_eq_undecryptable, decodePayload, decodeAdvert] at h
    split_ifs at h
  | ack | opaq | unknown => cases h

/-! ### The column `Err` of R273 -/

theorem errCode_frame_mem (e : FrameErr) : errCode (.frame e) ∈ ([0x11, 0x12, 0x13] : List Byte) := by
  cases e <;> decide

theorem errCode_packet_mem (e : PacketErr) : errCode (.packet e) ∈ ([0x21, 0x22] : List Byte) := by
  cases e <;> decide

theorem errCode_crypto_mem (e : CryptoErr) : errCode (.crypto e) ∈ ([0x31, 0x32, 0x33] : List Byte) := by
  cases e <;> decide

/-- The code of an accepted instruction's error stands in the instruction's row. -/
theorem errCode_of_acceptedOutcome {ps : Params} {secret? : Option Bytes} {phase : Phase} {i : Instr} {e : Err}
    (h : acceptedOutcome ps secret? phase i = .err e) : errCode e ∈ errCells i := by
  cases i with
  | nop | cksum | wrap | pencode | pencodex | txframe => cases h
  | ack | control | rawCustom | unknown7 | unknown9 | unknownA | unknownC | unknownD | unknownE => cases h
  | setkey => cases phase <;> cases h
  | unwrap raw =>
    simp only [acceptedOutcome] at h
    split at h <;> cases h
    exact errCode_frame_mem _
  | pdecode body =>
    simp only [acceptedOutcome] at h
    split at h <;> cases h
    exact errCode_packet_mem _
  | macdec buffer =>
    simp only [acceptedOutcome] at h
    split at h
    · cases h
    · split at h <;> cases h
      exact errCode_crypto_mem _
  | rxframe raw =>
    simp only [acceptedOutcome] at h
    split at h <;> cases h
    next hrx =>
      cases e with
      | frame e => exact List.mem_append_left [0x21, 0x22] (errCode_frame_mem e)
      | packet e => exact List.mem_append_right [0x11, 0x12, 0x13] (errCode_packet_mem e)
      | crypto e => exact absurd rfl (rxframe_error_not_crypto hrx e)
  | pldecode | advert =>
    obtain ⟨-, rfl⟩ := advert_of_payloadEnd_err h
    exact List.mem_singleton_self _
  | req | response | txtMsg | path | grpTxt | grpData => cases (advert_of_payloadEnd_err h).1

/-! ### The column `Undecryptable` of R273 -/

/-- An accepted instruction that ends undecryptable decodes a payload of an encrypted type. -/
theorem exists_decodesAs_of_undecryptable {ps : Params} {secret? : Option Bytes} {phase : Phase} {i : Instr}
    {r : UndecReason} {c : Bytes} (hok : operandsOk ps i = true)
    (h : acceptedOutcome ps secret? phase i = .undecryptable r c) :
    ∃ t code p n, decodesAs ps t code p i ∧ hashBytes t = some n := by
  cases i with
  | nop | cksum | wrap | pencode | pencodex | txframe => cases h
  | ack | control | rawCustom | unknown7 | unknown9 | unknownA | unknownC | unknownD | unknownE => cases h
  | setkey => cases phase <;> cases h
  | unwrap | pdecode | rxframe => simp only [acceptedOutcome] at h; split at h <;> cases h
  | macdec =>
    simp only [acceptedOutcome] at h
    split at h
    · cases h
    · split at h <;> cases h
  | pldecode pt p =>
    obtain ⟨n, hn⟩ := hashBytes_of_payloadEnd_undecryptable h
    have hpt : pt.toNat ≤ 15 := okU4_iff.1 (Bool.and_eq_true_iff.1 hok).1
    exact ⟨_, _, p, n, decodesAs_pldecode hpt rfl p, hn⟩
  | req ver rt p => exact ⟨_, _, p, _, decodesAs_row ps 0x0 ver rt p, rfl⟩
  | response ver rt p => exact ⟨_, _, p, _, decodesAs_row ps 0x1 ver rt p, rfl⟩
  | txtMsg ver rt p => exact ⟨_, _, p, _, decodesAs_row ps 0x2 ver rt p, rfl⟩
  | grpTxt ver rt p => exact ⟨_, _, p, _, decodesAs_row ps 0x5 ver rt p, rfl⟩
  | grpData ver rt p => exact ⟨_, _, p, _, decodesAs_row ps 0x6 ver rt p, rfl⟩
  | path ver rt p => exact ⟨_, _, p, _, decodesAs_row ps 0x8 ver rt p, rfl⟩
  | advert =>
    obtain ⟨n, hn⟩ := hashBytes_of_payloadEnd_undecryptable h
    cases hn

/-- PLDECODE decodes a payload as the type that the parameters' table gives its code: no dispatch row is PLDECODE. -/
theorem ptypeOf_of_decodesAs_pldecode {ps : Params} {t : PType} {code : BitVec 4} {p q : Bytes} {pt : Byte}
    (h : decodesAs ps t code p (.pldecode pt q)) : ptypeOf ps (pt.setWidth 4) = t := by
  obtain ⟨_, -, rfl, rfl, ⟨⟩⟩ | ⟨ver, rt, -, hrow⟩ := h
  · rfl
  · have hcommand := (encode_hdrRow ver rt code p).2
    rw [← hrow] at hcommand
    cases hcommand

/-- The dispatch rows of the encrypted types have the five reasons in their rows. -/
theorem undecCells_hdrRow {code : BitVec 4} {n : Nat} (h : hashBytes (ptypeOf Params.default code) = some n)
    (ver rt : BitVec 2) (p : Bytes) : undecCells (hdrRows.get code.toFin ver rt p) = allUndecs.map undecCode := by
  obtain ⟨c, hc⟩ := code
  interval_cases c <;> cases h <;> rfl

theorem undecCells_of_decodesAs {ps : Params} {t : PType} {code : BitVec 4} {p : Bytes} {i : Instr} {n : Nat}
    (hi : decodesAs ps t code p i) (hn : hashBytes t = some n) : undecCells i = allUndecs.map undecCode := by
  obtain ⟨pt, -, -, -, rfl⟩ | ⟨ver, rt, rfl, rfl⟩ := hi
  · rfl
  · exact undecCells_hdrRow hn ver rt p

theorem mem_allUndecs (r : UndecReason) : r ∈ allUndecs := by cases r <;> decide

/-! ### The column `Refused` of R273 -/

/-- The two refusals that are not for an operand: MACDEC with no secret, SETKEY in `RUN` (R254). -/
theorem acceptedOutcome_eq_refused {ps : Params} {secret? : Option Bytes} {phase : Phase} {i : Instr}
    {r : RefuseReason} (h : acceptedOutcome ps secret? phase i = .refused r) :
    (∃ b, i = .macdec b ∧ r = .noKey) ∨ (∃ k, i = .setkey k ∧ r = .keyLocked) := by
  cases i with
  | macdec b =>
    simp only [acceptedOutcome] at h
    split at h
    · cases h; exact .inl ⟨b, rfl, rfl⟩
    · split at h <;> cases h
  | setkey k => cases phase <;> cases h; exact .inr ⟨k, rfl, rfl⟩
  | nop | cksum | wrap | pencode | pencodex | txframe => cases h
  | ack | control | rawCustom | unknown7 | unknown9 | unknownA | unknownC | unknownD | unknownE => cases h
  | unwrap | pdecode | rxframe => simp only [acceptedOutcome] at h; split at h <;> cases h
  | pldecode | req | response | txtMsg | path | advert | grpTxt | grpData => exact absurd h (payloadEnd_ne_refused _ r)

theorem refuseCell_of_acceptedOutcome {ps : Params} {secret? : Option Bytes} {phase : Phase} {i : Instr}
    {r : RefuseReason} (h : acceptedOutcome ps secret? phase i = .refused r) : refuseCell ps i (refuseCode r) := by
  obtain ⟨b, rfl, rfl⟩ | ⟨k, rfl, rfl⟩ := acceptedOutcome_eq_refused h
  · exact .inl rfl
  · exact .inl rfl

/-- `BadOperand` stands in the row of every instruction that can have a malformed operand, for a string over `MAXLEN`
where it has no other operand. -/
theorem refuseCell_of_malformed {ps : Params} {i : Instr} (h : malformed ps i) :
    refuseCell ps i (refuseCode .badOperand) := by
  cases i with
  | nop =>
    obtain ⟨m, -, b, hb, -⟩ | hf := h
    · cases hb
    · exact hf
  | pencode | pencodex | pldecode | txframe => rfl
  | macdec | setkey => exact .inr ⟨rfl, h.resolve_right id⟩
  | _ => exact ⟨rfl, h.resolve_right id⟩

/-! ### The context of an error (R275) -/

theorem State.phase_of_admits_err {e : Err} {s : State} (h : s.admits (.err e)) : s.phase = .run := by
  cases e with
  | crypto c => exact h.1
  | frame c | packet c => exact h

/-- An accepted instruction that ends in phase `RUN` has not written the secret: SETKEY writes it in `CONFIG`, where it
stays. -/
theorem State.sameContext_prepare_of_run {i : Instr} {s : State} (h : (s.prepare i).phase = .run) :
    sameContext s (s.prepare i) := by
  obtain ⟨-, hr⟩ | ⟨-, hr⟩ | ⟨k, -, hp, hr⟩ := s.prepare_cases i <;> rw [hr] at h ⊢
  · exact ⟨rfl, rfl, rfl, rfl⟩
  · exact ⟨rfl, rfl, rfl, rfl⟩
  · cases hp.symm.trans h

/-! ### Encrypted payloads that fail (R221, R224, R231) -/

/-- The failures of an encrypted payload with `n` hash bytes, in order: no secret, too short for the hash bytes and a
tag, a crypto error of the buffer after the hash bytes. -/
theorem decodePayload_of_hashBytes {t : PType} {n : Nat} (h : hashBytes t = some n) (code : BitVec 4) (p : Bytes) :
    decodePayload none t code p = .undecryptable .noSecret []
      ∧ (∀ k, p.length < n + 2 → decodePayload (some k) t code p = .undecryptable .payloadTooShort [])
      ∧ (∀ k e, n + 2 ≤ p.length → macDec k (p.drop n) = .error e →
          decodePayload (some k) t code p = .undecryptable (undecOf e) (p.take n)) := by
  cases t with
  | group g =>
    cases h
    refine ⟨rfl, fun k hlen => if_pos hlen, fun k e hlen he => ?_⟩
    obtain ⟨h0, rest, rfl⟩ := List.exists_cons_of_length_pos (by omega : 0 < p.length)
    simp only [decodePayload, decodeGroup, if_neg (Nat.not_lt.2 hlen), he]
    rfl
  | peer r =>
    cases h
    refine ⟨rfl, fun k hlen => if_pos hlen, fun k e hlen he => ?_⟩
    match p with
    | h0 :: h1 :: rest =>
      simp only [decodePayload, decodePeer, if_neg (Nat.not_lt.2 hlen), he]
      rfl
  | advert | ack | opaq | unknown => cases h

/-- An undecryptable payload enters `RUN` and leaves its reason and its clear bytes (R271). -/
theorem exec_of_undecryptable {s : State} {t : PType} {code : BitVec 4} {p clear : Bytes} {i : Instr} {r : UndecReason}
    (hi : decodesAs s.params t code p i) (hok : okBytes s.params p = true)
    (h : decodePayload s.secret? t code p = .undecryptable r clear) :
    exec i s = .next { s with phase := .run, status := .undec, err := undecCode r, res := .bytes clear } :=
  exec_of_decodePayload hi hok h

/-! ### The settled obligations -/

/-- Settles O31 (R210, R231, R271): the failures in their order, with the crypto errors those of MacDec on the bytes
after the hash bytes. -/
theorem undecryptableReasons : Obligations.UndecryptableReasons := by
  refine ⟨fun s t code p i n hi hn hok => ?_, fun i s u hu hst => ?_⟩
  · obtain ⟨hnone, hshort, hcrypto⟩ := decodePayload_of_hashBytes hn code p
    have hsecret (hv : s.keyValid = true) : s.secret? = some s.key.toList := State.secret?_of_valid hv
    have hmac (e : CryptoErr) (hv : s.keyValid = true) (hlen : n + 2 ≤ p.length)
        (he : macDec s.key.toList (p.drop n) = .error e) :
        exec i s = .next { s with
          phase := .run, status := .undec, err := undecCode (undecOf e), res := .bytes (p.take n) } :=
      exec_of_undecryptable hi hok (by rw [hsecret hv]; exact hcrypto _ e hlen he)
    have hbuffer : (p.drop n).drop 2 = p.drop (n + 2) := List.drop_drop
    have hlength : (p.drop n).length = p.length - n := List.length_drop
    refine ⟨fun hv => exec_of_undecryptable (r := .noSecret) hi hok (by rw [State.secret?_of_invalid hv]; exact hnone),
      fun hv hlen => exec_of_undecryptable (r := .payloadTooShort) hi hok (by rw [hsecret hv]; exact hshort _ hlen),
      fun hv hlen => hmac .tooShort hv hlen.ge (macDec_eq_error.2 (.inl ⟨by omega, rfl⟩)),
      fun hv hlen htag => hmac .authenticationFailed hv hlen.le (macDec_eq_error.2 (.inr (.inl ⟨by omega, ?_, rfl⟩))),
      fun hv hlen htag hblock => hmac .invalidBlockLength hv hlen.le
        (macDec_eq_error.2 (.inr (.inr ⟨by omega, ?_, ?_, rfl⟩)))⟩
    · rw [hbuffer]; exact htag
    · rw [hbuffer]; exact htag
    · rw [hbuffer, List.length_drop]; exact hblock
  · obtain ⟨hok, rfl⟩ | ⟨-, rfl⟩ := exec_eq_next hu
    · rw [State.perform_status] at hst
      obtain ⟨r, c, ho⟩ := outcomeStatus_eq_undec.1 hst
      exact exists_decodesAs_of_undecryptable hok ho
    · cases hst

/-- Settles O38 (R273): the outcome of an accepted instruction by its kind, and the refusal of a malformed operand. -/
theorem outcomeTable : Obligations.OutcomeTable := by
  intro i s u hu
  obtain ⟨hok, rfl⟩ | ⟨hbad, rfl⟩ := exec_eq_next hu
  · rw [State.perform_status, State.perform_err]
    cases ho : acceptedOutcome s.params s.secret? s.phase i with
    | ok v => exact .inl ⟨rfl, rfl⟩
    | err e =>
      refine .inr (.inl ⟨rfl, errCode_of_acceptedOutcome ho, ?_⟩)
      rintro pt p rfl
      exact (advert_of_payloadEnd_err ho).1
    | undecryptable r c =>
      obtain ⟨t, code, p, n, hi, hn⟩ := exists_decodesAs_of_undecryptable hok ho
      refine .inr (.inr (.inl ⟨rfl, ?_, ?_⟩))
      · rw [undecCells_of_decodesAs hi hn]
        exact List.mem_map_of_mem (mem_allUndecs r)
      · rintro pt q rfl
        rw [ptypeOf_of_decodesAs_pldecode hi, hn]
        exact Option.some_ne_none n
    | refused r => exact .inr (.inr (.inr ⟨rfl, refuseCell_of_acceptedOutcome ho⟩))
  · exact .inr (.inr (.inr ⟨rfl, refuseCell_of_malformed (operandsOk_eq_false_iff.1 hbad)⟩))

/-- Settles O39 (R275): the context that admits an error is in `RUN`, so the instruction is not a SETKEY that writes the
secret. -/
theorem errorEntry : Obligations.ErrorEntry := by
  intro i s u hu hst
  obtain ⟨-, rfl⟩ | ⟨-, rfl⟩ := exec_eq_next hu
  · rw [State.perform_status] at hst
    obtain ⟨e, ho⟩ := outcomeStatus_eq_err.1 hst
    have hrun : (s.prepare i).phase = .run := State.phase_of_admits_err (ho ▸ s.prepare_admits i)
    rw [State.perform, ho]
    exact ⟨hrun, State.sameContext_prepare_of_run hrun, e, State.lastOutcome_finish _ _, rfl⟩
  · cases hst

end Sys2Proof.Machine
end

section
/-! PROOFS. What outlives a step (R280, R300), and several instances (R281). A step that is not the reset event leaves
the registers, refuses a command or performs one; an interleaving moves one state of the cluster at a time, and the
others are kept. -/

namespace Sys2Proof.Machine

/-! ### A secret that is set stays set -/

theorem State.keyValid_perform {i : Instr} {s : State} (h : s.keyValid = true) : (s.perform i).keyValid = true := by
  rw [State.perform, State.finish_keyValid]
  obtain ⟨-, hr⟩ | ⟨-, hr⟩ | ⟨k, -, -, hr⟩ := s.prepare_cases i <;> rw [hr]
  · exact h
  · exact h
  · rfl

/-- What an instruction keeps of the phase `RUN` and of the secret (R280). -/
theorem exec_keeps_run_and_secret {i : Instr} {s u : State} (hu : exec i s = .next u) :
    (s.phase = .run → u.phase = .run ∧ u.keyValid = s.keyValid ∧ u.key = s.key)
      ∧ (s.keyValid = true → u.keyValid = true) := by
  refine ⟨fun hrun => ?_, fun hv => ?_⟩
  · obtain ⟨v, hv, hphase, -, hvalid, hkey, -⟩ := exec_run_frame i hrun
    cases hu.symm.trans hv
    exact ⟨hphase, hvalid, hkey⟩
  · obtain ⟨-, rfl⟩ | ⟨-, rfl⟩ := exec_eq_next hu
    · exact State.keyValid_perform hv
    · exact hv

/-! ### Steps -/

/-- A step that is not the reset event leaves every register, records the rejection of a command, or performs one. -/
theorem step_cases_of_not_reset {s : State} (h : ∀ q, s.inbox ≠ .reset :: q) :
    (∃ q, step s = .next (s.withInbox q)) ∨ (∃ q r, step s = .next ((s.withInbox q).refuse r))
      ∨ (∃ i q, step s = exec i (s.withInbox q)) := by
  obtain ⟨-, hs⟩ | ⟨q, hi, -⟩ | ⟨q, -, hs⟩ | ⟨_, _, q, r, -, -, hs⟩ | ⟨_, _, q, i, rest, -, -, hs⟩ | ⟨i, q, -, hs⟩
    | ⟨b, p, q, -, hs⟩ := step_cases s
  · exact .inl ⟨s.inbox, hs⟩
  · exact absurd hi (h q)
  · exact .inl ⟨q, hs⟩
  · exact .inr (.inl ⟨q, rejectReason r, hs⟩)
  · exact .inr (.inr ⟨i, _, hs⟩)
  · exact .inr (.inr ⟨i, q, hs⟩)
  · exact .inr (.inr ⟨_, q, hs⟩)

/-- Every step answers a next state (R311). -/
theorem exists_step_eq_next (s : State) : ∃ t, step s = .next t := by
  rw [step]
  cases s.take with
  | idle | event | rejected => exact ⟨_, rfl⟩
  | run i t => exact ⟨_, exec_eq i t⟩

theorem core_run_succ {M : Host.Core} {s t : M.State} (h : M.step s = .next t) (n : Nat) :
    M.run (n + 1) s = M.run n t := by
  rw [Host.Core.run, h]

/-! ### Clusters (R281) -/

/-- Instance `k` takes its own step, and nothing else in the cluster changes. -/
theorem Cluster.stepAt_eq_set {before : Cluster} {k : Nat} {s t : State} (hk : before[k]? = some s)
    (hs : step s = .next t) : Cluster.stepAt k before = some (before.set k t) := by
  simp only [Cluster.stepAt, List.head?_drop, hk, hs]

theorem Cluster.run_cons {before : Cluster} {k : Nat} {s t : State} (hk : before[k]? = some s) (hs : step s = .next t)
    (ks : List Nat) :
    Cluster.run (k :: ks) before = Cluster.run ks (before.set k t) := by
  simp only [Cluster.run, Cluster.stepAt_eq_set hk hs]

/-- An interleaving of existing instances runs to its end, and each of them is then where its own steps take it. -/
theorem Cluster.run_eq_runs_alone (ks : List Nat) (before : Cluster) (hks : ∀ k ∈ ks, k < before.length) :
    ∃ after, Cluster.run ks before = some after ∧ after.length = before.length
      ∧ ∀ (k : Nat) (s : State), before[k]? = some s →
          ∃ t : State, after[k]? = some t ∧ Host.Core.run Sys2Proof.core (ks.count k) s = .next t := by
  induction ks generalizing before with
  | nil => exact ⟨before, rfl, rfl, fun k s hk => ⟨s, hk, rfl⟩⟩
  | cons j ks ih =>
    have hj : j < before.length := hks j List.mem_cons_self
    have hget : before[j]? = some before[j] := List.getElem?_eq_getElem hj
    obtain ⟨moved, hmoved⟩ := exists_step_eq_next before[j]
    obtain ⟨after, hrun, hlen, halone⟩ := ih (before.set j moved) fun k hk => by
      simpa using hks k (List.mem_cons_of_mem j hk)
    rw [List.length_set] at hlen
    refine ⟨after, (Cluster.run_cons hget hmoved ks).trans hrun, hlen, fun k s hk => ?_⟩
    by_cases hkj : j = k
    · subst hkj
      obtain rfl : before[j] = s := Option.some.inj (hget.symm.trans hk)
      obtain ⟨t, ht, hrest⟩ := halone j moved (List.getElem?_set_self hj)
      rw [List.count_cons_self]
      exact ⟨t, ht, (core_run_succ (M := Sys2Proof.core) hmoved (ks.count j)).trans hrest⟩
    · rw [List.count_cons_of_ne hkj]
      exact halone k s ((List.getElem?_set_ne hkj).trans hk)

/-! ### The settled obligations -/

/-- Settles O49 (R280, R300), by what a step can be without the reset event: what the block takes from the host's items
is no register. -/
theorem runIsLeftByResetOnly : Obligations.RunIsLeftByResetOnly := by
  intro s t ht hreset
  obtain ⟨q, h⟩ | ⟨q, r, h⟩ | ⟨i, q, h⟩ := step_cases_of_not_reset hreset <;> rw [h] at ht
  · cases ht; exact ⟨fun hrun => ⟨hrun, rfl, rfl⟩, id⟩
  · cases ht; exact ⟨fun hrun => ⟨hrun, rfl, rfl⟩, id⟩
  · exact exec_keeps_run_and_secret (s := s.withInbox q) ht

/-- Settles O56 (R281): `Cluster.run_eq_runs_alone`, with a state of the cluster read at its number. -/
theorem instancesDoNotInterfere : Obligations.InstancesDoNotInterfere := by
  intro ks before hks
  simpa only [List.head?_drop] using Cluster.run_eq_runs_alone ks before hks

end Sys2Proof.Machine
end

section
/-! PROOFS. Every step answers a next state with the parameters as they were (R302, R311), and the reset event leads to
the state after reset (R300, R301). No update that a step is made of writes the parameters. -/

namespace Sys2Proof.Machine

/-! ### The parameters (R7) -/

@[simp] theorem State.prepare_params (i : Instr) (s : State) : (s.prepare i).params = s.params := by
  obtain ⟨-, h⟩ | ⟨-, h⟩ | ⟨k, -, -, h⟩ := s.prepare_cases i <;> rw [h]
  · exact s.enterRun_params
  · exact s.installKey_params k

@[simp] theorem State.perform_params (i : Instr) (s : State) : (s.perform i).params = s.params := by
  rw [State.perform, State.finish_params, State.prepare_params]

theorem exec_keeps_params {i : Instr} {s u : State} (h : exec i s = .next u) : u.params = s.params := by
  obtain ⟨-, rfl⟩ | ⟨-, rfl⟩ := exec_eq_next h
  · exact s.perform_params i
  · exact s.refuse_params _

/-! ### Steps without an operation (R300, R302) -/

theorem step_idle {s : State} (h : s.inbox = []) : step s = .next s := by
  rw [step, State.take_nil h]

theorem step_reset {s : State} {q : List HostItem} (h : s.inbox = .reset :: q) :
    step s = .next (s.withInbox q).applyReset := by
  rw [step, State.take_reset h]

/-- What the block takes from the host's items, the reset event and a refusal are no parameters, and no operation writes
them either. -/
theorem step_keeps_params {s t : State} (ht : step s = .next t) : t.params = s.params := by
  by_cases hreset : ∃ q, s.inbox = .reset :: q
  · obtain ⟨q, hq⟩ := hreset
    cases (step_reset hq).symm.trans ht
    rfl
  · obtain ⟨q, h⟩ | ⟨q, r, h⟩ | ⟨i, q, h⟩ := step_cases_of_not_reset (not_exists.1 hreset) <;> rw [h] at ht
    · cases ht; rfl
    · cases ht; rfl
    · exact exec_keeps_params (s := s.withInbox q) ht

/-! ### The settled obligations -/

/-- Settles O45 (R302, R311): a step answers a next state (`exists_step_eq_next`), and whichever state it answers has the
parameters of the one before. -/
theorem everyStepCompletes : Obligations.EveryStepCompletes := by
  refine ⟨fun s => ?_, fun s => step_idle⟩
  obtain ⟨t, ht⟩ := exists_step_eq_next s
  exact ⟨t, ht, step_keeps_params ht⟩

/-- Settles O48 (R300, R301): the state that the reset event leads to is `State.applyReset` of the state with the event
taken, and its registers are those of `State.reset`. -/
theorem resetEventRestores : Obligations.ResetEventRestores := by
  refine ⟨⟨rfl, rfl, rfl, rfl⟩, fun s q hq => ⟨_, step_reset hq, ?_⟩⟩
  simp

end Sys2Proof.Machine
end
